-- ==== Sys2Proof/Word.lean ====
section
/-!
DEFINITION. The word types of the block and its plainest arithmetic (00_scope R15, R16).
-/

namespace Sys2Proof

/-- A 32-bit command word or register value (R31, R120). -/
abbrev Word := BitVec 32

/-- A 16-bit quantity: a pixel, a coordinate, a number of milliseconds (R12, R82, R122). -/
abbrev Half := BitVec 16

/-- One byte of the transfer buffer or of the wire (R17, R84). -/
abbrev Byte := BitVec 8

/-- `ceil_div(a, b) = (a + b - 1) div b` (R16). -/
def ceilDiv (a b : Nat) : Nat := (a + b - 1) / b

end Sys2Proof
end

