-- ==== Sys2Proof/Config.lean ====
section
/-!
DEFINITION. What an implementation fixes (00_scope R6 to R14) and the free values of the memories at
reset (20_memory R83, R84). The parameters are plain data that `State` carries unchanged.
-/

namespace Sys2Proof

/-- The command byte of an init-table entry: a literal byte, or the placeholder `INV_FROM_CFG` (R201). -/
inductive CmdByte where
  | lit (b : Byte)
  | invFromCfg
  deriving DecidableEq, Repr

/-- A parameter byte of an init-table entry: a literal, or the placeholder `MADCTL_FROM_CFG` (R201). -/
inductive ParamByte where
  | lit (b : Byte)
  | madctlFromCfg
  deriving DecidableEq, Repr

/-- One entry `(cmd, params, delay_ms)` of INIT_TABLE (R11). -/
structure InitEntry where
  cmd : CmdByte
  params : List ParamByte
  delayMs : Half
  deriving DecidableEq, Repr

/-- The panel command bytes the sequencer sends (R9). -/
structure PanelBytes where
  caset : Byte
  raset : Byte
  ramwr : Byte
  slpin : Byte
  slpout : Byte
  colmod : Byte
  madctl : Byte
  invon : Byte
  invoff : Byte
  dispon : Byte
  colmodRgb565 : Byte
  deriving DecidableEq, Repr

/-- The implementation parameters of R6 to R14. -/
structure Params where
  /-- PANEL_W, PANEL_H (R6) -/
  panelW : Nat
  panelH : Nat
  /-- MAX_CHUNK_BYTES, TBUF_BYTES (R7) -/
  maxChunkBytes : Nat
  tbufBytes : Nat
  /-- SHARED_BUS (R8) -/
  sharedBus : Bool
  /-- the wire-protocol bytes (R9) -/
  bytes : PanelBytes
  /-- COL_OFFSET, ROW_OFFSET (R10) -/
  colOffset : Nat
  rowOffset : Nat
  /-- INIT_TABLE (R11) -/
  initTable : List InitEntry
  /-- the delays (R12), in milliseconds -/
  tResetRecovery : Half
  tPostInit : Half
  tSleepIn : Half
  tSleepOut : Half
  /-- line times in nanoseconds (R13): no rule depends on them -/
  tCsSetup : Nat
  tDcSetup : Nat
  tCsHold : Nat
  /-- REG_BASE (R14) -/
  regBase : Nat
  deriving DecidableEq, Repr

namespace Config

/-- The default command bytes of R9 (the spec marks them as general knowledge). -/
def defaultBytes : PanelBytes :=
  { caset := 0x2A, raset := 0x2B, ramwr := 0x2C, slpin := 0x10, slpout := 0x11, colmod := 0x3A,
    madctl := 0x36, invon := 0x21, invoff := 0x20, dispon := 0x29, colmodRgb565 := 0x05 }

/-- The default INIT_TABLE of R202 over given command bytes. -/
def defaultInitTable (b : PanelBytes) : List InitEntry :=
  [ { cmd := .lit b.slpout, params := [], delayMs := 120 },
    { cmd := .lit b.colmod, params := [.lit b.colmodRgb565], delayMs := 0 },
    { cmd := .lit b.madctl, params := [.madctlFromCfg], delayMs := 0 },
    { cmd := .invFromCfg, params := [], delayMs := 0 },
    { cmd := .lit b.dispon, params := [], delayMs := 0 } ]

/-- The parameters of every example of the spec (95_test_vectors section 0). DESIGN CHOICE, unsafe: they are OPEN
in the spec, and `State.reset` holds these; a statement about all states holds for all parameters [log 3, 17]. -/
def exampleParams : Params :=
  { panelW := 80, panelH := 160, maxChunkBytes := 512, tbufBytes := 512, sharedBus := false,
    bytes := defaultBytes, colOffset := 0, rowOffset := 0, initTable := defaultInitTable defaultBytes,
    tResetRecovery := 120, tPostInit := 100, tSleepIn := 5, tSleepOut := 120,
    tCsSetup := 0, tDcSetup := 0, tCsHold := 0, regBase := 0 }

/-- FREE VALUE (R83, U1): what pixel-buffer entry `i` holds from reset until it is written; `draw` tells one
block reset's contents from another's [log 4]. -/
opaque freePixel (draw i : Nat) : Half

/-- FREE VALUE (R84, U2): what transfer-buffer byte `i` holds from reset until it is staged [log 5]. -/
opaque freeByte (draw i : Nat) : Byte

end Config

end Sys2Proof
end

