-- ==== Sys2Proof/Syntax.lean ====
section
/-!
DEFINITION. The host commands (30_encoding R127, R129), one constructor per row of the opcode table; the host's
register accesses (20_memory R87); and the lines of a host program (30_encoding R136, R137).
-/

namespace Sys2Proof

/-- A host command with its operands as fields of their encoded widths (R127, R128). The data words of a
DRAW_IMAGE are not held: the assembler consumes them one by one (R126, R252) and keeps none [log 19]. -/
inductive Instr where
  /-- INIT (R272) -/
  | init (resetMs : Half) (orient : BitVec 2) (bgr inv : Bool)
  /-- WRITE_PIXEL (R241) -/
  | writePixel (color x y : Half)
  /-- DRAW_IMAGE (R248) -/
  | drawImage (x y w h : Half)
  /-- CLEAR (R256) -/
  | clear (color : Half)
  /-- FLUSH (R279) -/
  | flush
  /-- SLEEP (R289) -/
  | sleep
  /-- WAKE (R294) -/
  | wake
  /-- CLOSE (R299) -/
  | close
  deriving DecidableEq, Repr

/-- One host access to the register space: an address, a width in bits and, for a store, a value (R87). -/
inductive Access where
  | read (addr width : Nat)
  | write (addr width : Nat) (value : Word)
  deriving DecidableEq, Repr

/-- One line of a host program (R136) with the pseudo-instructions of R137; operands are the numbers written. -/
inductive HostLine where
  | w32 (offset value : Nat)
  | r32 (offset : Nat)
  | init (resetMs orient bgr inv : Nat)
  | writePixel (x y color : Nat)
  | drawImage (x y w h : Nat) (pixels : List Nat)
  | clear (color : Nat)
  | flush
  | sleep
  | wake
  | close
  /-- `.word v`: a raw command word -/
  | word (v : Nat)
  /-- `WAITIDLE`: poll STATUS until BUSY = 0 -/
  | waitIdle
  /-- `ABORT` with the host's current DONE_IE setting -/
  | abort (doneIe : Nat)
  deriving DecidableEq, Repr

end Sys2Proof
end

