-- ==== Sys2Proof/WellFormed.lean ====
section
/-!
DEFINITION. What is well formed: the parameters (00_scope R6 to R12), the operands of a host-program line
(30_encoding R137), and a host command (R131: its fields have no illegal value).
-/

namespace Sys2Proof

/-- R131: operand words have no illegal values, and `Instr`'s fields have exactly the encoded widths, so every
term of `Instr` is a well-formed command. The checks that can fail are those of `HostLine` and `Params`. -/
def Instr.wellFormed : Instr → Bool
  | .init _ _ _ _ => true
  | .writePixel _ _ _ => true
  | .drawImage _ _ _ _ => true
  | .clear _ => true
  | .flush => true
  | .sleep => true
  | .wake => true
  | .close => true

/-- R137: operands outside their field width are assembler errors; a DRAW_IMAGE line lists w*h pixels. -/
def HostLine.wellFormed : HostLine → Bool
  | .w32 offset value => decide (offset < 0x40) && decide (offset % 4 = 0) && decide (value < 2 ^ 32)
  | .r32 offset => decide (offset < 0x40) && decide (offset % 4 = 0)
  | .init resetMs orient bgr inv =>
    decide (resetMs ≤ 0xFFFF) && decide (orient ≤ 3) && decide (bgr ≤ 1) && decide (inv ≤ 1)
  | .writePixel x y color => decide (x ≤ 0xFFFF) && decide (y ≤ 0xFFFF) && decide (color ≤ 0xFFFF)
  | .drawImage x y w h pixels =>
    decide (x ≤ 0xFFFF) && decide (y ≤ 0xFFFF) && decide (w ≤ 0xFFFF) && decide (h ≤ 0xFFFF) &&
      decide (pixels.length = w * h) && pixels.all fun p => decide (p ≤ 0xFFFF)
  | .clear color => decide (color ≤ 0xFFFF)
  | .flush => true
  | .sleep => true
  | .wake => true
  | .close => true
  | .word v => decide (v < 2 ^ 32)
  | .waitIdle => true
  | .abort doneIe => decide (doneIe ≤ 1)

/-- The constraints of R6, R7 and R10 (those of R12 and R9 are the fields' widths). `maxChunkBytes < 2 ^ 32` is
DEDUCED from R47 and R16: CHUNKCFG[31:0] holds it, and a value stored in a field fits [log 21]. -/
def Params.wellFormed (p : Params) : Bool :=
  decide (1 ≤ p.panelW) && decide (p.panelW ≤ 65535) && decide (1 ≤ p.panelH) && decide (p.panelH ≤ 65535) &&
  decide (p.maxChunkBytes % 2 = 0) && decide (2 ≤ p.maxChunkBytes) && decide (p.maxChunkBytes ≤ p.tbufBytes) &&
  decide (p.maxChunkBytes < 2 ^ 32) &&
  decide (4 ≤ p.tbufBytes) && p.initTable.all (fun e => decide (e.params.length ≤ p.tbufBytes)) &&
  decide (p.panelW - 1 + p.colOffset ≤ 65535) && decide (p.panelH - 1 + p.rowOffset ≤ 65535)

end Sys2Proof
end

