-- ==== Sys2Proof/Decode.lean ====
section
/-!
DEFINITION. Reading command words (30_encoding R120 to R132): fields, lengths, the decoder, and after it the encoder
and the expansion of host-program lines (R137). A command is a list of 32-bit words; the byte order of the host bus
is not observable (20_memory R89).
-/

namespace Sys2Proof

/-! ## Fields -/

/-- OP, header bits [31:24] (R121). -/
def opField (w : Word) : Byte := w.extractLsb' 24 8

/-- The low half of a word, bits [15:0]: COLOR, RESET_MS, X, W or P0 (R122 to R124, R127). -/
def loHalf (w : Word) : Half := w.extractLsb' 0 16

/-- The high half of a word, bits [31:16]: Y, H or P1 (R122 to R124). -/
def hiHalf (w : Word) : Half := w.extractLsb' 16 16

/-- A word from its high and low halves, `{hi, lo}` (R15). -/
def pairWord (hi lo : Half) : Word := hi ++ lo

/-! ## Lengths -/

/-- How many operand words follow the header before the length is known (R125). -/
def operandWords (op : Byte) : Nat :=
  match op.toNat with
  | 2 => 1
  | 3 => 2
  | _ => 0

/-- The number of PP data words of a W x H image (R125). -/
def dataWords (w h : Half) : Nat := ceilDiv (w.toNat * h.toNat) 2

/-- The length in words of the command that begins the stream, when the words that tell it are there (R125). -/
def commandLength (ws : List Word) : Option Nat :=
  match ws with
  | [] => none
  | hdr :: rest =>
    if opField hdr = 3 then
      match rest with
      | _ :: wh :: _ => some (3 + dataWords (loHalf wh) (hiHalf wh))
      | _ => none
    else some (1 + operandWords (opField hdr))

/-! ## The decoder -/

/-- Why a list of words is no command. -/
inductive DecodeError where
  /-- there is no header word -/
  | noHeader
  /-- a reserved opcode: 0x00 or 0x09 to 0xFF (R130) -/
  | reservedOpcode (op : Byte)
  /-- a defined opcode with a must-be-zero bit set (R130) -/
  | reservedBits (op : Byte)
  /-- operand words are missing (the assembler never starts such a command, R126) -/
  | missingOperand (op : Byte)
  deriving DecidableEq, Repr

/-- The must-be-zero bits of a header with a defined opcode are all 0 (R127, R130). -/
def rsvzClear (hdr : Word) : Bool :=
  match (opField hdr).toNat with
  | 1 => hdr.extractLsb' 20 4 == 0
  | 2 => hdr.extractLsb' 16 8 == 0
  | 4 => hdr.extractLsb' 16 8 == 0
  | _ => hdr.extractLsb' 0 24 == 0

/-- The opcode map (R129), for a header whose must-be-zero bits are 0: the command and the words after its header
and operand words. -/
def decodeOp (hdr : Word) (rest : List Word) : Except DecodeError (Instr × List Word) :=
  match (opField hdr).toNat with
  | 1 => .ok (.init (loHalf hdr) (hdr.extractLsb' 16 2) (hdr.getLsbD 18) (hdr.getLsbD 19), rest)
  | 2 =>
    match rest with
    | xy :: rest' => .ok (.writePixel (loHalf hdr) (loHalf xy) (hiHalf xy), rest')
    | _ => .error (.missingOperand (opField hdr))
  | 3 =>
    match rest with
    | xy :: wh :: rest' => .ok (.drawImage (loHalf xy) (hiHalf xy) (loHalf wh) (hiHalf wh), rest')
    | _ => .error (.missingOperand (opField hdr))
  | 4 => .ok (.clear (loHalf hdr), rest)
  | 5 => .ok (.flush, rest)
  | 6 => .ok (.sleep, rest)
  | 7 => .ok (.wake, rest)
  | 8 => .ok (.close, rest)
  | _ => .error (.reservedOpcode (opField hdr))

/-- An opcode of the map of R129. -/
def definedOp (op : Byte) : Bool := decide (1 ≤ op.toNat) && decide (op.toNat ≤ 8)

/-- The decoder, total on any list of words: the command the list begins with and the words after its operand
words, or the reason there is none (R129, R130). -/
def decode (ws : List Word) : Except DecodeError (Instr × List Word) :=
  match ws with
  | [] => .error .noHeader
  | hdr :: rest =>
    if definedOp (opField hdr) then
      if rsvzClear hdr then decodeOp hdr rest else .error (.reservedBits (opField hdr))
    else .error (.reservedOpcode (opField hdr))

/-! ## The encoder -/

/-- A header word with opcode `op` and 24-bit argument `arg` (R121). -/
def header (op : Byte) (arg : BitVec 24) : Word := op ++ arg

/-- The 24-bit argument that holds a 16-bit value with its upper byte zero (R127). -/
def arg16 (v : Half) : BitVec 24 := (0 : Byte) ++ v

/-- INIT's argument {RSVZ, INV, BGR, ORIENT, RESET_MS} (R127). -/
def argInit (resetMs : Half) (orient : BitVec 2) (bgr inv : Bool) : BitVec 24 :=
  (0 : BitVec 4) ++ BitVec.ofBool inv ++ BitVec.ofBool bgr ++ orient ++ resetMs

/-- The opcode of a command (R129). -/
def Instr.opcode : Instr → Byte
  | .init _ _ _ _ => 1
  | .writePixel _ _ _ => 2
  | .drawImage _ _ _ _ => 3
  | .clear _ => 4
  | .flush => 5
  | .sleep => 6
  | .wake => 7
  | .close => 8

/-- The header and operand words of a command (R120 to R129); a DRAW_IMAGE's data words are `packPixels`. -/
def encode : Instr → List Word
  | .init resetMs orient bgr inv => [header 1 (argInit resetMs orient bgr inv)]
  | .writePixel color x y => [header 2 (arg16 color), pairWord y x]
  | .drawImage x y w h => [header 3 0, pairWord y x, pairWord h w]
  | .clear color => [header 4 (arg16 color)]
  | .flush => [header 5 0]
  | .sleep => [header 6 0]
  | .wake => [header 7 0]
  | .close => [header 8 0]

/-- The PP data words of an image's pixels in image order; an odd count leaves P1 of the last word 0 (R124, R137). -/
def packPixels : List Half → List Word
  | [] => []
  | [p] => [pairWord 0 p]
  | p :: q :: rest => pairWord q p :: packPixels rest

/-! ## Host programs -/

/-- Register offsets by name (10_state R31). -/
def cmdOffset : Nat := 0x00
def statusOffset : Nat := 0x04
def ctrlOffset : Nat := 0x08
def intOffset : Nat := 0x0C

/-- A 32-bit store of `v` to register offset `off` (R136). -/
def storeWord (base off v : Nat) : Access := .write (base + off) 32 (BitVec.ofNat 32 v)

/-- The data-word stores of a DRAW_IMAGE line: `p[2k+1]<<16 + p[2k]` (R137). -/
def imageStores (base : Nat) : List Nat → List Access
  | [] => []
  | [p] => [storeWord base cmdOffset p]
  | p :: q :: rest => storeWord base cmdOffset (q * 2 ^ 16 + p) :: imageStores base rest

/-- The accesses a line expands to (R137), or none where the assembler refuses its operands. `WAITIDLE` is the one
read of its loop; the host repeats it while `waitIdleAgain` holds of the value read [log 26]. -/
def HostLine.expand (base : Nat) (l : HostLine) : Option (List Access) :=
  if l.wellFormed then
    match l with
    | .w32 offset value => some [storeWord base offset value]
    | .r32 offset => some [.read (base + offset) 32]
    | .init resetMs orient bgr inv =>
      some [storeWord base cmdOffset (0x01000000 + inv * 2 ^ 19 + bgr * 2 ^ 18 + orient * 2 ^ 16 + resetMs)]
    | .writePixel x y color =>
      some [storeWord base cmdOffset (0x02000000 + color), storeWord base cmdOffset (y * 2 ^ 16 + x)]
    | .drawImage x y w h pixels =>
      some (storeWord base cmdOffset 0x03000000 :: storeWord base cmdOffset (y * 2 ^ 16 + x) ::
        storeWord base cmdOffset (h * 2 ^ 16 + w) :: imageStores base pixels)
    | .clear color => some [storeWord base cmdOffset (0x04000000 + color)]
    | .flush => some [storeWord base cmdOffset 0x05000000]
    | .sleep => some [storeWord base cmdOffset 0x06000000]
    | .wake => some [storeWord base cmdOffset 0x07000000]
    | .close => some [storeWord base cmdOffset 0x08000000]
    | .word v => some [storeWord base cmdOffset v]
    | .waitIdle => some [.read (base + statusOffset) 32]
    | .abort doneIe => some [storeWord base ctrlOffset (0x2 + doneIe)]
  else none

/-- WAITIDLE reads again while BUSY, STATUS bit 4, is 1 (R137). -/
def waitIdleAgain (status : Word) : Bool := status.getLsbD 4

/-! ## The host's opcode-table words -/

/-- The words of an instruction whose low `nbits` bits are `w` and whose bits above are 0: the first word is the least
significant, then the operand words its opcode asks for, then a DRAW_IMAGE's data words. -/
def tableWords (nbits w : Nat) : List Word :=
  let v := w % 2 ^ nbits
  let word (k : Nat) : Word := BitVec.ofNat 32 (v / 2 ^ (32 * k))
  let hdr := word 0
  match operandWords (opField hdr) with
  | 0 => [hdr]
  | 1 => [hdr, word 1]
  | _ => [hdr, word 1, word 2] ++
      (List.range (dataWords (loHalf (word 2)) (hiHalf (word 2)))).map fun k => word (3 + k)

/-- The instruction the decoder reads from a table word (the host's question). -/
def decodeTableWord (nbits w : Nat) : Option Instr :=
  match decode (tableWords nbits w) with
  | .ok (i, _) => some i
  | .error _ => none

end Sys2Proof
end

