-- ==== Sys2Proof/Machine/State.lean ====
section
/-!
DEFINITION. The state of SEQ as plain data (10_state R30 to R54, 20_memory R80 to R84), the reasons a step can stop, and
the state right after reset.
-/

namespace Sys2Proof.Machine

/-! ## Small types -/

/-- STATUS.STATE (R33). -/
inductive DriverState where
  | uninit
  | resetting
  | initializing
  | ready
  | flushing
  | sleeping
  | closed
  deriving DecidableEq, Repr

/-- The result codes of R320. -/
inductive Code where
  | ok
  | outOfBounds
  | transportError
  | initError
  | closedError
  | flushError
  | invalidState
  | illegalCommand
  deriving DecidableEq, Repr

/-- TRANSPORT's answer to a transfer request (R171). -/
inductive Answer where
  | ok
  | err
  deriving DecidableEq, Repr

/-- The mode of a transfer: Command (dc = 0) or Data (dc = 1) (R50). -/
inductive Mode where
  | command
  | data
  deriving DecidableEq, Repr

/-- An event of the wire trace (R50). -/
inductive Event where
  | cs (level : Bool)
  | rst (level : Bool)
  | tx (mode : Mode) (bytes : List Byte) (answer : Answer)
  | wait (ms : Half)
  | lock
  | unlock
  deriving DecidableEq, Repr

/-- The dirty window DW (R41). -/
structure Window where
  valid : Bool
  x0 : Half
  y0 : Half
  x1 : Half
  y1 : Half
  deriving DecidableEq, Repr

/-- The empty window: coordinates 0 (R41). -/
def Window.empty : Window := { valid := false, x0 := 0, y0 := 0, x1 := 0, y1 := 0 }

/-- The CFG register's fields (R45). -/
structure Cfg where
  orient : BitVec 2
  bgr : Bool
  inv : Bool
  deriving DecidableEq, Repr

/-- The groups a frame sends (R180, R204, R206, R216, R217): the sequence pointer's names for them. -/
inductive Group where
  | initEntry
  | caset
  | raset
  | ramwr
  | slpin
  | slpout
  deriving DecidableEq, Repr

/-- The micro-operations of one group (R180) and the delay after an init-table entry (R204). -/
inductive GroupStep where
  | cmdMode
  | cmdByte
  | dataMode
  | params
  | settle
  deriving DecidableEq, Repr

/-- The step names of the sequence pointer (R34): the micro-operation reached in the executing command's pseudocode
[log 1]. -/
inductive SeqStep where
  /-- a command's first step: its check and first assignments -/
  | begin
  /-- INIT's reset pulse and recovery delay (R169, R272) -/
  | resetLow
  | resetHold
  | resetHigh
  | recovery
  /-- BeginFrame (R179) -/
  | acquire
  | select
  /-- a group inside the frame -/
  | group (g : Group) (m : GroupStep)
  /-- WritePixels: its DataMode, then chunk n (R213) -/
  | pixelMode
  | chunk
  /-- EndFrame (R179) -/
  | deselect
  | release
  /-- the delay after a frame (R218, R277) -/
  | postDelay
  /-- AbortFrame (R181) -/
  | abortDeselect
  | abortRelease
  /-- CLOSE's own micro-operations (R299) -/
  | closeDeselect
  | closeRelease
  | closeResetHigh
  deriving DecidableEq, Repr

/-- The sequence pointer SP (R34): IDLE, or an opcode, a step and a counter (table entry, chunk index). -/
inductive SeqPtr where
  | idle
  | run (op : Byte) (step : SeqStep) (n : Nat)
  deriving DecidableEq, Repr

/-- The assembler's phase (R126). -/
inductive AsmPhase where
  | none
  | oper
  | data
  deriving DecidableEq, Repr

/-- The command assembler ASM (R126). -/
structure Assembler where
  phase : AsmPhase
  hdr : Word
  opnd : List Word
  left : Nat
  k : Nat
  verdict : Code
  deriving DecidableEq, Repr

/-- ASM empty (R54); the values beside the phase are the model's DESIGN CHOICE [log 13]. -/
def Assembler.empty : Assembler :=
  { phase := .none, hdr := 0, opnd := [], left := 0, k := 0, verdict := .ok }

/-- The in-flight transfer state XFER (R37). -/
structure Xfer where
  pending : Bool
  len : Nat
  deriving DecidableEq, Repr

/-- What an agent does in one turn, beside a host access [log 2]. -/
inductive Move where
  /-- no agent but the host moves -/
  | rest
  /-- the SEQ core takes a step, if it has one -/
  | core
  /-- TRANSPORT answers the outstanding request (R171) -/
  | transport (a : Answer)
  /-- TIMER answers the pending delay (R174) -/
  | timer
  /-- ARBITER grants the requested lock (R176, R178) -/
  | grant
  /-- an answer arrives to a request made before the last block reset (R361) -/
  | lateAnswer
  /-- the platform applies block reset (R360) -/
  | blockReset
  deriving DecidableEq, Repr

/-- One turn of the environment's schedule: a host access, if any, and then one move in the same step [log 2, 10]. -/
structure Turn where
  host : Option Access
  move : Move
  deriving DecidableEq, Repr

/-! ## Memory

A memory is a list of (address, contents) cells with strictly rising addresses. An address that is not listed has not
been written since reset: what it holds is a free value, so no listed entry equals "what an unlisted address reads as",
and the list is the one canonical form of what was written [log 4, 5, 6]. -/

/-- Cells of `w` bits by address; `Memory 8` is a list of `Host.Cell`. -/
abbrev Memory (w : Nat) := List (Nat × BitVec w)

/-- The canonical form: addresses strictly rising. -/
def Memory.wf {w : Nat} : Memory w → Bool
  | [] => true
  | [_] => true
  | a :: b :: rest => decide (a.1 < b.1) && Memory.wf (b :: rest)

/-! ## The state -/

/-- Everything the spec gives the machine (INVENTORY.md lists each item with its rule). -/
structure State where
  /-- the implementation parameters (R6 to R14): fixed, no step changes them -/
  params : Params
  /-- MODEL: the environment's schedule, oldest first [log 2] -/
  turns : List Turn
  /-- the word of a CMD write that is held until CMD_READY = 1: the HOST's hold (R20, R32, R367) [log 8] -/
  held : Option Word
  /-- MODEL: the value the last host read returned [log 12] -/
  rdata : Word
  /-- STATUS.STATE (R33) -/
  state : DriverState
  /-- STATUS.BUSY; CMD_READY is its negation (R35) -/
  busy : Bool
  /-- STATUS.RESULT (R35, R320) -/
  result : Code
  /-- STATUS.LAST_OP (R35) -/
  lastOp : Byte
  /-- STATUS.LOCKED (R35, R176) -/
  locked : Bool
  /-- STATUS.CLOSE_PENDING (R35, R303) -/
  closePending : Bool
  /-- CTRL.DONE_IE (R38) -/
  doneIe : Bool
  /-- INT.DONE (R40) -/
  intDone : Bool
  /-- INT.ERR (R40) -/
  intErr : Bool
  /-- DW (R41) -/
  dw : Window
  /-- CFG (R45) -/
  cfg : Cfg
  /-- CHUNKS.ISSUED (R46) -/
  chunksIssued : Half
  /-- CHUNKS.TOTAL (R46) -/
  chunksTotal : Half
  /-- the line outputs cs_n, dc, rst_n (R49) -/
  csN : Bool
  dc : Bool
  rstN : Bool
  /-- SP (R34) -/
  sp : SeqPtr
  /-- ASM (R126) -/
  asm : Assembler
  /-- XFER (R37) -/
  xfer : Xfer
  /-- the delay TIMER has not answered yet, in milliseconds (R52, R174) -/
  delay : Option Half
  /-- the lock request to ARBITER (R52, R176) -/
  lockReq : Bool
  /-- MODEL: the answer being handed to the core within the present step; none between steps [log 18] -/
  reply : Option Answer
  /-- PB (R82): the pixels written since reset, by pixel index -/
  pb : Memory 16
  /-- TB (R84): the bytes staged since reset, by index -/
  tb : Memory 8
  /-- MODEL: which draw of free memory contents holds [log 7] -/
  draw : Nat
  /-- the wire trace (R50), oldest event first -/
  trace : List Event
  deriving DecidableEq, Repr

/-- Why the machine stops with a fault. Each is a state that the spec says no command rule produces, so each is safe:
the model stops where the spec gives no effect [log 15]. -/
inductive Fault where
  /-- raised by a line micro-operation reached with XFER.pending = 1 (R161: "a fault in its own sequencing"); safe -/
  | lineDuringTransfer
  /-- raised by Transfer when a transfer is already outstanding (R170 precondition, R172); safe -/
  | secondTransfer
  /-- raised by Transfer for a length outside 1 .. TBUF_BYTES (R170, R84); safe -/
  | transferLength
  /-- raised by an access to a PB entry outside 0 .. PANEL_W*PANEL_H-1 (R82); safe -/
  | pixelRange
  /-- raised when SP names no step of the command being executed, or no command at all (R34, R126); safe -/
  | sequence
  deriving DecidableEq, Repr

/-- Why the machine refuses. -/
inductive Refusal where
  /-- raised by an arm of `exec` whose instruction has no meaning yet; safe -/
  | notModelled (mnemonic : String)
  /-- raised by a host access that is not a naturally aligned 32-bit one (R87, U7: refuse); safe -/
  | undefinedAccess
  /-- raised by a host access outside REG_BASE .. REG_BASE + 0x3F (R88, U8: not SEQ's); safe -/
  | outsideBlock
  deriving DecidableEq, Repr

/-- The outcome of a step or of one of its parts. -/
abbrev Out := Host.Outcome State Fault Refusal

/-- SEQ after block reset (R54, R360) with parameters `p` and the `draw`-th free memory contents. -/
def State.powerOn (p : Params) (draw : Nat) : State :=
  { params := p, turns := [], held := none, rdata := 0, state := .uninit, busy := false, result := .ok, lastOp := 0,
    locked := false, closePending := false, doneIe := false, intDone := false, intErr := false, dw := Window.empty,
    cfg := { orient := 0, bgr := false, inv := false }, chunksIssued := 0, chunksTotal := 0, csN := true, dc := false,
    rstN := true, sp := .idle, asm := Assembler.empty, xfer := { pending := false, len := 0 }, delay := none,
    lockReq := false, reply := none, pb := [], tb := [], draw := draw, trace := [] }

/-- The machine right after reset (R54): idle in UNINIT, with the example parameters [log 3]. -/
def State.reset : State := State.powerOn Config.exampleParams 0

end Sys2Proof.Machine
end

