-- ==== Sys2Proof/Machine/Ops.lean ====
section
/-!
DEFINITION. The operations every command is built from: memory, the wire trace, the line micro-operations, Transfer, Delay
and the bus lock (40_line_control), the sequence pointer, the dirty window (R240), and completion, the block's one form
of exception (60_exceptions R320 to R329), with the check that selects its code.
-/

namespace Sys2Proof.Machine

/-- Run `f` from the next state of `o`; a fault or a refusal stays. -/
def andThen (o : Out) (f : State → Out) : Out :=
  match o with
  | .next s => f s
  | .fault r => .fault r
  | .refused r => .refused r

/-! ## Memory -/

/-- What has been written at address `a` since reset, if anything. -/
def Memory.find? {w : Nat} : Memory w → Nat → Option (BitVec w)
  | [], _ => none
  | c :: rest, a => if c.1 = a then some c.2 else Memory.find? rest a

/-- Write `v` at address `a`, keeping the addresses rising. -/
def Memory.put {w : Nat} : Memory w → Nat → BitVec w → Memory w
  | [], a, v => [(a, v)]
  | c :: rest, a, v =>
    if a < c.1 then (a, v) :: c :: rest
    else if a = c.1 then (a, v) :: rest
    else c :: Memory.put rest a v

/-- The number of entries of PB (R82). -/
def pbSize (p : Params) : Nat := p.panelW * p.panelH

/-- The PB index of the pixel at column `x`, row `y`: row-major (R82). -/
def pixelIndex (p : Params) (x y : Nat) : Nat := y * p.panelW + x

/-- `MemRead(PB, i, 2)`: the value last written, else the entry's free value since reset (R18, R83). -/
def readPixel (s : State) (i : Nat) : Half := (s.pb.find? i).getD (Config.freePixel s.draw i)

/-- `MemWrite(PB, i, 2, v)` (R18); an index outside PB does not exist (R82). -/
def storePixel (i : Nat) (v : Half) (s : State) : Out :=
  if i < pbSize s.params then .next { s with pb := s.pb.put i v } else .fault .pixelRange

/-- CLEAR's loop: every entry of PB becomes `v` (R256). -/
def fillPixels (v : Half) (s : State) : State :=
  { s with pb := (List.range (pbSize s.params)).map fun i => (i, v) }

/-- `MemRead(TB, i, 1)` (R18, R84). -/
def readTb (s : State) (i : Nat) : Byte := (s.tb.find? i).getD (Config.freeByte s.draw i)

/-- Staging: `MemWrite(TB, i, 1, bytes[i])` from index `i` on (R170, D40). -/
def stageFrom (i : Nat) : List Byte → Memory 8 → Memory 8
  | [], tb => tb
  | b :: rest, tb => stageFrom (i + 1) rest (tb.put i b)

/-! ## Sequence pointer -/

/-- The pointer at another step of the same command (R34). -/
def SeqPtr.moveTo (sp : SeqPtr) (step : SeqStep) (n : Nat) : SeqPtr :=
  match sp with
  | .idle => .idle
  | .run op _ _ => .run op step n

/-- `SP <- (op, step, n)` within the executing command (R34). -/
def goto (step : SeqStep) (n : Nat) (s : State) : State := { s with sp := s.sp.moveTo step n }

/-! ## Lines

Each line operation sets the level and records an event only if the level changes (R50, R163 to R168). -/

/-- `Select()` (R163) -/
def selectLine (s : State) : State :=
  { s with csN := false, trace := s.trace ++ if s.csN then [.cs false] else [] }

/-- `Deselect()` (R164) -/
def deselectLine (s : State) : State :=
  { s with csN := true, trace := s.trace ++ if s.csN then [] else [.cs true] }

/-- `CmdMode()` (R165): no event -/
def cmdModeLine (s : State) : State := { s with dc := false }

/-- `DataMode()` (R166): no event -/
def dataModeLine (s : State) : State := { s with dc := true }

/-- `ResetLow()` (R167) -/
def resetLowLine (s : State) : State :=
  { s with rstN := false, trace := s.trace ++ if s.rstN then [.rst false] else [] }

/-- `ResetHigh()` (R168) -/
def resetHighLine (s : State) : State :=
  { s with rstN := true, trace := s.trace ++ if s.rstN then [] else [.rst true] }

/-- A line micro-operation of a command: never reached while a transfer is outstanding (R161). -/
def lineOp (line : State → State) (s : State) : Out :=
  if s.xfer.pending then .fault .lineDuringTransfer else .next (line s)

/-! ## Transfer (R170 to R173) -/

/-- Transfer's request step: stage the bytes into TB from index 0 and raise one request (R170). -/
def requestTransfer (bytes : List Byte) (s : State) : Out :=
  if s.xfer.pending then .fault .secondTransfer
  else if bytes.length = 0 ∨ s.params.tbufBytes < bytes.length then .fault .transferLength
  else .next { s with tb := stageFrom 0 bytes s.tb, xfer := { pending := true, len := bytes.length } }

/-- The mode of a transfer: C if dc = 0 and D if dc = 1 (R50, R170). -/
def modeOf (dc : Bool) : Mode := if dc then .data else .command

/-- The bytes of the outstanding request: TB[0 .. len) (R84, R170). -/
def sentBytes (s : State) : List Byte := (List.range s.xfer.len).map (readTb s)

/-- TRANSPORT's answer arrives: the request ends, the TX event is recorded, and the answer goes to the core (R170).
Mode and bytes are read now: neither dc nor TB changes while a transfer is outstanding (R85, R371) [log 22]. -/
def recordAnswer (a : Answer) (s : State) : State :=
  { s with xfer := { pending := false, len := s.xfer.len },
           trace := s.trace ++ [.tx (modeOf s.dc) (sentBytes s) a], reply := some a }

/-- `Transfer(bytes)` as the core's two steps: the request, and, when the answer is there, what follows. OK goes on with
`onOk`; ERR goes to the clean-up AbortFrame and nothing is retried (R170, R270, R321). -/
def transferStep (bytes : List Byte) (onOk : State → Out) (s : State) : Out :=
  match s.reply with
  | none => requestTransfer bytes s
  | some .ok => onOk { s with reply := none }
  | some .err => .next (goto .abortDeselect 0 { s with reply := none })

/-! ## Delay (R174, R175) -/

/-- Delay's request step: the WAIT event and the request to TIMER (R174). -/
def requestDelay (ms : Half) (s : State) : State :=
  { s with delay := some ms, trace := s.trace ++ [.wait ms] }

/-- `Delay(ms)` as the core's two steps; a delay of 0 is no step and no event (R174). -/
def delayStep (ms : Half) (after : State → Out) (s : State) : Out :=
  if ms = 0 then after { s with reply := none }
  else
    match s.reply with
    | none => .next (requestDelay ms s)
    | some _ => after { s with reply := none }

/-- Go to the delay step `hold`, or past it when the delay is 0 (R174: "no step, no event"). -/
def enterDelay (ms : Half) (hold : SeqStep) (n : Nat) (after : State → Out) (s : State) : Out :=
  if ms = 0 then after s else .next (goto hold n s)

/-! ## The bus lock (R176, R177) -/

/-- The lock is SEQ's: LOCKED, and on a shared bus the LOCK event (R176). -/
def takeLock (s : State) : State :=
  { s with locked := true, trace := s.trace ++ if s.params.sharedBus then [.lock] else [] }

/-- `Acquire()`: at once on an exclusive bus; else the request, and, when ARBITER has granted, what follows (R176). -/
def acquireStep (after : State → Out) (s : State) : Out :=
  if s.params.sharedBus then
    match s.reply with
    | none => .next { s with lockReq := true }
    | some _ => after (takeLock { s with reply := none })
  else after (takeLock { s with reply := none })

/-- `Release()`: nothing if LOCKED = 0 (R177) [log 29]. -/
def releaseLock (s : State) : State :=
  { s with locked := false, lockReq := s.lockReq && !(s.locked && s.params.sharedBus),
           trace := s.trace ++ if s.locked && s.params.sharedBus then [.unlock] else [] }

/-! ## The dirty window (R240) -/

/-- The smaller and the larger of two coordinates (R240; comparisons are unsigned, R16). -/
def minHalf (a b : Half) : Half := if a.toNat ≤ b.toNat then a else b
def maxHalf (a b : Half) : Half := if a.toNat ≤ b.toNat then b else a

/-- The window grown to cover ax..bx, ay..by (R240). -/
def Window.extend (dw : Window) (ax ay bx by' : Half) : Window :=
  if dw.valid then
    { valid := true, x0 := minHalf dw.x0 ax, y0 := minHalf dw.y0 ay, x1 := maxHalf dw.x1 bx, y1 := maxHalf dw.y1 by' }
  else { valid := true, x0 := ax, y0 := ay, x1 := bx, y1 := by' }

/-- `extend(ax, ay, bx, by)` (R240). -/
def extendDirty (ax ay bx by' : Half) (s : State) : State := { s with dw := s.dw.extend ax ay bx by' }

/-- The whole panel (R256). -/
def Window.whole (p : Params) : Window :=
  { valid := true, x0 := 0, y0 := 0, x1 := BitVec.ofNat 16 (p.panelW - 1), y1 := BitVec.ofNat 16 (p.panelH - 1) }

/-- DW is inside the panel: x0 ≤ x1 < PANEL_W and y0 ≤ y1 < PANEL_H (R41, R206). -/
def Window.inPanel (dw : Window) (p : Params) : Bool :=
  decide (dw.x0.toNat ≤ dw.x1.toNat) && decide (dw.x1.toNat < p.panelW) &&
  decide (dw.y0.toNat ≤ dw.y1.toNat) && decide (dw.y1.toNat < p.panelH)

/-! ## Completion: the block's exception mechanism (R320 to R329) -/

/-- `complete(CODE)`, the single end of every command (R322). -/
def complete (code : Code) (s : State) : State :=
  { s with result := code, lastOp := opField s.asm.hdr, intDone := true, intErr := s.intErr || decide (code ≠ .ok),
           busy := false, sp := .idle }

/-- `valid(op)`: the states in which a command executes (R327) [log 30]. -/
def validIn (i : Instr) (st : DriverState) : Bool :=
  match i with
  | .init _ _ _ _ => st == .uninit
  | .writePixel _ _ _ => st == .ready || st == .sleeping
  | .drawImage _ _ _ _ => st == .ready || st == .sleeping
  | .clear _ => st == .ready || st == .sleeping
  | .flush => st == .ready
  | .sleep => st == .ready
  | .wake => st == .sleeping
  | .close => st != .closed

/-- Every command but INIT and CLOSE (R325 step 3). -/
def needsInit (i : Instr) : Bool :=
  match i with
  | .init _ _ _ _ => false
  | .writePixel _ _ _ => true
  | .drawImage _ _ _ _ => true
  | .clear _ => true
  | .flush => true
  | .sleep => true
  | .wake => true
  | .close => false

/-- The bounds of a W x H image at (X, Y): the origin is in the panel, and an image with pixels ends in it; the sums are
on unbounded integers and do not wrap (R249). An image without pixels needs its origin only (R254, D24), where R248 and
R325 write the sums without that exception [log 32]. -/
def imageInPanel (p : Params) (x y w h : Nat) : Bool :=
  decide (x < p.panelW) && decide (y < p.panelH) &&
  (decide (w * h = 0) || (decide (x + w ≤ p.panelW) && decide (y + h ≤ p.panelH)))

/-- R325 step 5. -/
def inBounds (p : Params) (i : Instr) : Bool :=
  match i with
  | .init _ _ _ _ => true
  | .writePixel _ x y => decide (x.toNat < p.panelW) && decide (y.toNat < p.panelH)
  | .drawImage x y w h => imageInPanel p x.toNat y.toNat w.toNat h.toNat
  | .clear _ => true
  | .flush => true
  | .sleep => true
  | .wake => true
  | .close => true

/-- `check` for a legal command, steps 1 and 3 to 5 of R325; step 2 is the decoder's (`verdictOf`). -/
def check (i : Instr) (s : State) : Code :=
  if s.state = .closed then .closedError
  else if s.state = .uninit ∧ needsInit i = true then .initError
  else if validIn i s.state = false then .invalidState
  else if inBounds s.params i = false then .outOfBounds
  else .ok

/-- `check(hdr, opnd)` on the words themselves (R325, R326): CLOSED comes before ILLEGAL_COMMAND. -/
def verdictOf (ws : List Word) (s : State) : Code :=
  match decode ws with
  | .ok (i, _) => check i s
  | .error _ => if s.state = .closed then .closedError else .illegalCommand

/-- The head of every command but DRAW_IMAGE: `code <- check(...); if code != OK: complete(code)`. -/
def checked (i : Instr) (body : State → Out) (s : State) : Out :=
  if check i s = .ok then body s else .next (complete (check i s) s)

/-- Abandonment of an executing command (R303), one step [log 24]: cancel a pending delay, withdraw a
pending lock request, Deselect, Release, ResetHigh, and complete with CLOSED_ERROR in CLOSED. -/
def abandon (s : State) : State :=
  let t := resetHighLine (releaseLock (deselectLine { s with delay := none, lockReq := s.lockReq && s.locked, reply := none }))
  complete .closedError { t with state := .closed, closePending := false }

end Sys2Proof.Machine
end

