-- ==== Sys2Proof/Machine/Operands.lean ====
section
/-!
DEFINITION. The byte lists the command encoder sends (41_command_encoder): be16, the resolved init table, the
address-window parameters, the pixel stream and its chunk plan.
-/

namespace Sys2Proof.Machine

/-- `be16(v)`: most significant byte first (R17, R92, R93). -/
def be16 (v : Half) : List Byte := [v.extractLsb' 8 8, v.extractLsb' 0 8]

/-! ## Init table (R201 to R203) -/

/-- `base[ORIENT]` (R203). -/
def madctlBase (orient : BitVec 2) : Byte :=
  match orient.toNat with
  | 0 => 0x00
  | 1 => 0x60
  | 2 => 0xC0
  | _ => 0xA0

/-- `madctl(ORIENT, BGR) = base[ORIENT] + 8 * BGR` (R203). -/
def madctl (orient : BitVec 2) (bgr : Bool) : Byte := madctlBase orient + (if bgr then 8 else 0)

/-- An entry's command byte with its placeholder resolved from CFG (R201). -/
def resolveCmd (s : State) (c : CmdByte) : Byte :=
  match c with
  | .lit b => b
  | .invFromCfg => if s.cfg.inv then s.params.bytes.invon else s.params.bytes.invoff

/-- A parameter byte with its placeholder resolved from CFG (R201). -/
def resolveParam (s : State) (b : ParamByte) : Byte :=
  match b with
  | .lit v => v
  | .madctlFromCfg => madctl s.cfg.orient s.cfg.bgr

/-! ## Address window (R206) -/

/-- A coordinate with its offset, a u16 (R206; it fits by R10). -/
def offsetCoord (c : Half) (offset : Nat) : Half := BitVec.ofNat 16 (c.toNat + offset)

/-- The CASET parameters `be16(xs) ++ be16(xe)` (R206). -/
def casetParams (s : State) : List Byte :=
  be16 (offsetCoord s.dw.x0 s.params.colOffset) ++ be16 (offsetCoord s.dw.x1 s.params.colOffset)

/-- The RASET parameters `be16(ys) ++ be16(ye)` (R206). -/
def rasetParams (s : State) : List Byte :=
  be16 (offsetCoord s.dw.y0 s.params.rowOffset) ++ be16 (offsetCoord s.dw.y1 s.params.rowOffset)

/-! ## Pixel stream and chunks (R208 to R214) -/

/-- The width and height of a window in pixels. -/
def Window.width (dw : Window) : Nat := dw.x1.toNat - dw.x0.toNat + 1
def Window.height (dw : Window) : Nat := dw.y1.toNat - dw.y0.toNat + 1

/-- N, the stream length in bytes (R209). -/
def streamLength (dw : Window) : Nat := 2 * dw.width * dw.height

/-- T, the number of chunks (R212). -/
def chunkCount (s : State) : Nat := ceilDiv (streamLength s.dw) s.params.maxChunkBytes

/-- Byte `n` of the pixel stream, computed from PB without building the stream (R210). -/
def streamByte (s : State) (n : Nat) : Byte :=
  let q := n / 2
  let row := s.dw.y0.toNat + q / s.dw.width
  let col := s.dw.x0.toNat + q % s.dw.width
  let p := readPixel s (pixelIndex s.params col row)
  if n % 2 = 0 then p.extractLsb' 8 8 else p.extractLsb' 0 8

/-- Chunk `k`: bytes k*M up to min((k+1)*M, N) of the stream (R212, R214). -/
def chunkBytes (s : State) (k : Nat) : List Byte :=
  let start := k * s.params.maxChunkBytes
  let stop := min ((k + 1) * s.params.maxChunkBytes) (streamLength s.dw)
  (List.range (stop - start)).map fun j => streamByte s (start + j)

/-- The stream `S(x0, y0, x1, y1)` built row by row (R208). -/
def pixelStream (s : State) : List Byte :=
  (List.range s.dw.height).flatMap fun r =>
    (List.range s.dw.width).flatMap fun c =>
      be16 (readPixel s (pixelIndex s.params (s.dw.x0.toNat + c) (s.dw.y0.toNat + r)))

/-- `sat16(v) = min(v, 0xFFFF)` (R213). -/
def sat16 (v : Nat) : Half := BitVec.ofNat 16 (min v 0xFFFF)

end Sys2Proof.Machine
end

