-- ==== Sys2Proof/Machine/Flags.lean ====
section
/-!
DEFINITION. The flags and registers as the host reads them (10_state R31 to R48, 60_exceptions R330): views of the state,
each bit stored in one place.
-/

namespace Sys2Proof.Machine

/-- The encoding of STATUS.STATE (R33). -/
def DriverState.code : DriverState → BitVec 4
  | .uninit => 0
  | .resetting => 1
  | .initializing => 2
  | .ready => 3
  | .flushing => 4
  | .sleeping => 5
  | .closed => 6

/-- The encoding of STATUS.RESULT (R320). -/
def Code.code : Code → BitVec 4
  | .ok => 0
  | .outOfBounds => 1
  | .transportError => 2
  | .initError => 3
  | .closedError => 4
  | .flushError => 5
  | .invalidState => 6
  | .illegalCommand => 7

/-- STATUS.CMD_READY equals NOT BUSY (R35). -/
def cmdReady (s : State) : Bool := !s.busy

/-- STATUS.ASSEMBLING: 1 exactly when ASM's phase is not NONE (R126). -/
def assembling (s : State) : Bool := decide (s.asm.phase ≠ .none)

/-- The interrupt output: DONE_IE AND INT.DONE (R330). -/
def irq (s : State) : Bool := s.doneIe && s.intDone

/-- STATUS (R35), from bit 31 down to bit 0. -/
def statusReg (s : State) : Word :=
  (0 : BitVec 5) ++ BitVec.ofBool s.rstN ++ BitVec.ofBool s.dc ++ BitVec.ofBool s.csN ++
  (0 : BitVec 1) ++ BitVec.ofBool (assembling s) ++ BitVec.ofBool s.closePending ++ BitVec.ofBool s.xfer.pending ++
  s.lastOp ++ s.result.code ++ BitVec.ofBool s.locked ++ BitVec.ofBool s.dw.valid ++ BitVec.ofBool (cmdReady s) ++
  BitVec.ofBool s.busy ++ s.state.code

/-- CTRL: DONE_IE; CLOSE reads 0 (R38). -/
def ctrlReg (s : State) : Word := (0 : BitVec 31) ++ BitVec.ofBool s.doneIe

/-- INT: ERR and DONE (R40). -/
def intReg (s : State) : Word := (0 : BitVec 30) ++ BitVec.ofBool s.intErr ++ BitVec.ofBool s.intDone

/-- CFG: INV, BGR, ORIENT (R45). -/
def cfgReg (s : State) : Word :=
  (0 : BitVec 28) ++ BitVec.ofBool s.cfg.inv ++ BitVec.ofBool s.cfg.bgr ++ s.cfg.orient

/-- The register a host load at `offset` reads (R31, R42, R44, R46 to R48); CMD and reserved offsets read 0. -/
def readReg (s : State) (offset : Nat) : Word :=
  match offset with
  | 0x04 => statusReg s
  | 0x08 => ctrlReg s
  | 0x0C => intReg s
  | 0x10 => pairWord s.dw.y0 s.dw.x0
  | 0x14 => pairWord s.dw.y1 s.dw.x1
  | 0x18 => pairWord (BitVec.ofNat 16 s.params.panelH) (BitVec.ofNat 16 s.params.panelW)
  | 0x1C => cfgReg s
  | 0x20 => pairWord s.chunksTotal s.chunksIssued
  | 0x24 => BitVec.ofNat 32 s.params.maxChunkBytes
  | _ => 0

end Sys2Proof.Machine
end

