-- ==== Sys2Proof/Machine/Driver.lean ====
section
/-!
DEFINITION. The driver commands INIT, FLUSH, SLEEP, WAKE and CLOSE (43_driver_ops), one micro-operation per step (R270).
Each meaning is read beside its pseudocode: the step names are the positions of SP, and an assignment that is no
micro-operation happens in the step it stands next to [log 1].
-/

namespace Sys2Proof.Machine

/-! ## Shared pieces -/

/-- `SendGroup(cmd, params)` (R180) at its micro-operation `m`: CmdMode, the command byte, then, unless `params` is
empty, DataMode and the parameters in one transfer; `onOk` follows the group's last answer. -/
def groupStep (g : Group) (m : GroupStep) (n : Nat) (cmd : Byte) (params : List Byte) (onOk : State → Out)
    (s : State) : Out :=
  match m with
  | .cmdMode => lineOp (fun t => goto (.group g .cmdByte) n (cmdModeLine t)) s
  | .cmdByte =>
    transferStep [cmd] (fun t => if params = [] then onOk t else .next (goto (.group g .dataMode) n t)) s
  | .dataMode => lineOp (fun t => goto (.group g .params) n (dataModeLine t)) s
  | .params => transferStep params onOk s
  | .settle => .fault .sequence

/-- `EndFrame` and `AbortFrame` (R179, R181) as two steps: Deselect, then Release with what follows it. -/
def deselectStep (next : SeqStep) (s : State) : Out := lineOp (fun t => goto next 0 (deselectLine t)) s
def releaseStep (after : State → Out) (s : State) : Out := after (releaseLock s)

/-- The end of a command in a given driver state. -/
def finish (st : DriverState) (code : Code) (s : State) : Out := .next (complete code { s with state := st })

/-! ## INIT (R272 to R278) -/

/-- INIT after its check: CFG from the header, and RESETTING (R272, R273). -/
def initBegin (orient : BitVec 2) (bgr inv : Bool) (s : State) : Out :=
  .next (goto .resetLow 0 { s with cfg := { orient := orient, bgr := bgr, inv := inv }, state := .resetting })

/-- After the recovery delay: INITIALIZING, and the frame opens (R272). -/
def initOpen (s : State) : Out := .next (goto .acquire 0 { s with state := .initializing })

/-- Entry `n` of the init table, or the end of the frame after the last (R204). -/
def initEntryAt (n : Nat) (s : State) : Out :=
  if n < s.params.initTable.length then .next (goto (.group .initEntry .cmdMode) n s)
  else .next (goto .deselect 0 s)

/-- `InitSequence` at entry `n`, micro-operation `m`: the resolved group, then its delay inside the frame (R204). -/
def initGroup (m : GroupStep) (n : Nat) (s : State) : Out :=
  match s.params.initTable[n]? with
  | none => .fault .sequence
  | some e =>
    match m with
    | .settle => delayStep e.delayMs (initEntryAt (n + 1)) s
    | _ =>
      groupStep .initEntry m n (resolveCmd s e.cmd) (e.params.map (resolveParam s))
        (enterDelay e.delayMs (.group .initEntry .settle) n (initEntryAt (n + 1))) s

/-- INIT (R272). -/
def execInit (resetMs : Half) (orient : BitVec 2) (bgr inv : Bool) (s : State) : Out :=
  match s.sp with
  | .run _ .begin _ => checked (.init resetMs orient bgr inv) (initBegin orient bgr inv) s
  | .run _ .resetLow _ =>
    andThen (lineOp resetLowLine s) (enterDelay resetMs .resetHold 0 fun t => .next (goto .resetHigh 0 t))
  | .run _ .resetHold _ => delayStep resetMs (fun t => .next (goto .resetHigh 0 t)) s
  | .run _ .resetHigh _ =>
    andThen (lineOp resetHighLine s) (enterDelay s.params.tResetRecovery .recovery 0 initOpen)
  | .run _ .recovery _ => delayStep s.params.tResetRecovery initOpen s
  | .run _ .acquire _ => acquireStep (fun t => .next (goto .select 0 t)) s
  | .run _ .select _ => andThen (lineOp selectLine s) (initEntryAt 0)
  | .run _ (.group .initEntry m) n => initGroup m n s
  | .run _ .deselect _ => deselectStep .release s
  | .run _ .release _ => releaseStep (enterDelay s.params.tPostInit .postDelay 0 (finish .ready .ok)) s
  | .run _ .postDelay _ => delayStep s.params.tPostInit (finish .ready .ok) s
  | .run _ .abortDeselect _ => deselectStep .abortRelease s
  | .run _ .abortRelease _ => releaseStep (finish .uninit .initError) s
  | _ => .fault .sequence

/-! ## FLUSH (R279 to R286) -/

/-- FLUSH after its check: CHUNKS cleared, and nothing more when DW is empty (R280, R281). -/
def flushBegin (s : State) : Out :=
  let t := { s with chunksIssued := 0, chunksTotal := 0 }
  if t.dw.valid then .next (goto .acquire 0 { t with state := .flushing }) else .next (complete .ok t)

/-- Chunk `k`, or the end of the frame after the last (R213). -/
def flushChunkAt (k : Nat) (s : State) : Out :=
  if k < chunkCount s then .next (goto .chunk k s) else .next (goto .deselect 0 s)

/-- WritePixels begins: CHUNKS.TOTAL and DataMode (R213). -/
def pixelModeStep (s : State) : Out :=
  andThen (lineOp dataModeLine { s with chunksTotal := sat16 (chunkCount s) }) (flushChunkAt 0)

/-- Chunk `k` is counted and requested; after OK the next one (R213 to R215). Only pixels of PB are read (R82). -/
def chunkStep (k : Nat) (s : State) : Out :=
  if s.dw.inPanel s.params then
    match s.reply with
    | none => requestTransfer (chunkBytes s k) { s with chunksIssued := sat16 (k + 1) }
    | some _ => transferStep (chunkBytes s k) (flushChunkAt (k + 1)) s
  else .fault .pixelRange

/-- FLUSH (R279). The window is read from DW, which holds it unchanged until the command's last step [log 23]. -/
def execFlush (s : State) : Out :=
  match s.sp with
  | .run _ .begin _ => checked .flush flushBegin s
  | .run _ .acquire _ => acquireStep (fun t => .next (goto .select 0 t)) s
  | .run _ .select _ => andThen (lineOp selectLine s) fun t => .next (goto (.group .caset .cmdMode) 0 t)
  | .run _ (.group .caset m) _ =>
    groupStep .caset m 0 s.params.bytes.caset (casetParams s)
      (fun t => .next (goto (.group .raset .cmdMode) 0 t)) s
  | .run _ (.group .raset m) _ =>
    groupStep .raset m 0 s.params.bytes.raset (rasetParams s)
      (fun t => .next (goto (.group .ramwr .cmdMode) 0 t)) s
  | .run _ (.group .ramwr m) _ =>
    groupStep .ramwr m 0 s.params.bytes.ramwr [] (fun t => .next (goto .pixelMode 0 t)) s
  | .run _ .pixelMode _ => pixelModeStep s
  | .run _ .chunk k => chunkStep k s
  | .run _ .deselect _ => deselectStep .release s
  | .run _ .release _ => releaseStep (fun t => finish .ready .ok { t with dw := Window.empty }) s
  | .run _ .abortDeselect _ => deselectStep .abortRelease s
  | .run _ .abortRelease _ => releaseStep (finish .ready .flushError) s
  | _ => .fault .sequence

/-! ## SLEEP (R289 to R291) and WAKE (R294 to R296) -/

/-- SLEEP (R289): SLPIN in one frame, T_SLEEP_IN_MS, then SLEEPING. -/
def execSleep (s : State) : Out :=
  match s.sp with
  | .run _ .begin _ => checked .sleep (fun t => .next (goto .acquire 0 t)) s
  | .run _ .acquire _ => acquireStep (fun t => .next (goto .select 0 t)) s
  | .run _ .select _ => andThen (lineOp selectLine s) fun t => .next (goto (.group .slpin .cmdMode) 0 t)
  | .run _ (.group .slpin m) _ =>
    groupStep .slpin m 0 s.params.bytes.slpin [] (fun t => .next (goto .deselect 0 t)) s
  | .run _ .deselect _ => deselectStep .release s
  | .run _ .release _ => releaseStep (enterDelay s.params.tSleepIn .postDelay 0 (finish .sleeping .ok)) s
  | .run _ .postDelay _ => delayStep s.params.tSleepIn (finish .sleeping .ok) s
  | .run _ .abortDeselect _ => deselectStep .abortRelease s
  | .run _ .abortRelease _ => releaseStep (fun t => .next (complete .transportError t)) s
  | _ => .fault .sequence

/-- WAKE (R294): SLPOUT in one frame, T_SLEEP_OUT_MS, then READY. -/
def execWake (s : State) : Out :=
  match s.sp with
  | .run _ .begin _ => checked .wake (fun t => .next (goto .acquire 0 t)) s
  | .run _ .acquire _ => acquireStep (fun t => .next (goto .select 0 t)) s
  | .run _ .select _ => andThen (lineOp selectLine s) fun t => .next (goto (.group .slpout .cmdMode) 0 t)
  | .run _ (.group .slpout m) _ =>
    groupStep .slpout m 0 s.params.bytes.slpout [] (fun t => .next (goto .deselect 0 t)) s
  | .run _ .deselect _ => deselectStep .release s
  | .run _ .release _ => releaseStep (enterDelay s.params.tSleepOut .postDelay 0 (finish .ready .ok)) s
  | .run _ .postDelay _ => delayStep s.params.tSleepOut (finish .ready .ok) s
  | .run _ .abortDeselect _ => deselectStep .abortRelease s
  | .run _ .abortRelease _ => releaseStep (fun t => .next (complete .transportError t)) s
  | _ => .fault .sequence

/-! ## CLOSE (R299 to R301) -/

/-- CLOSE (R299): Deselect, Release, ResetHigh, then CLOSED. -/
def execClose (s : State) : Out :=
  match s.sp with
  | .run _ .begin _ => checked .close (fun t => .next (goto .closeDeselect 0 t)) s
  | .run _ .closeDeselect _ => deselectStep .closeRelease s
  | .run _ .closeRelease _ => releaseStep (fun t => .next (goto .closeResetHigh 0 t)) s
  | .run _ .closeResetHigh _ => andThen (lineOp resetHighLine s) (finish .closed .ok)
  | _ => .fault .sequence

end Sys2Proof.Machine
end

