-- ==== Sys2Proof/Machine/Framebuffer.lean ====
section
/-!
DEFINITION. The framebuffer commands WRITE_PIXEL, DRAW_IMAGE and CLEAR (42_framebuffer). Each executes in one step after
its last word is accepted (R242, R248, R256); none drives a line or requests a transfer.
-/

namespace Sys2Proof.Machine

/-- A command that executes in its first step only: SP must be there (R34). -/
def atBegin (body : State → Out) (s : State) : Out :=
  match s.sp with
  | .run _ .begin _ => body s
  | _ => .fault .sequence

/-- WRITE_PIXEL (R241): the check, the pixel, the dirty window, completion. -/
def execWritePixel (color x y : Half) (s : State) : Out :=
  atBegin (checked (.writePixel color x y) fun t =>
    andThen (storePixel (pixelIndex t.params x.toNat y.toNat) color t) fun u =>
      .next (complete .ok (extendDirty x y x y u))) s

/-- The last column or row of an image that starts at `start` with `size` pixels (R248). -/
def lastCoord (start size : Half) : Half := BitVec.ofNat 16 (start.toNat + size.toNat - 1)

/-- DRAW_IMAGE's execute step (R248): the verdict was found at the WH word, and the pixels were written as the data
words were accepted (R252); an empty image leaves DW unchanged. -/
def execDrawImage (x y w h : Half) (s : State) : Out :=
  atBegin (fun t =>
    if t.asm.verdict = .ok then
      if 0 < w.toNat * h.toNat then .next (complete .ok (extendDirty x y (lastCoord x w) (lastCoord y h) t))
      else .next (complete .ok t)
    else .next (complete t.asm.verdict t)) s

/-- CLEAR (R256): every entry of PB, and the whole panel dirty. -/
def execClear (color : Half) (s : State) : Out :=
  atBegin (checked (.clear color) fun t =>
    .next (complete .ok { fillPixels color t with dw := Window.whole t.params })) s

end Sys2Proof.Machine
end

