-- ==== Sys2Proof/Machine/Dispatch.lean ====
section
/-!
DEFINITION. One step of the SEQ core in an executing command, by the command's constructor (R270).
-/

namespace Sys2Proof.Machine

def exec (i : Instr) (s : State) : Host.Outcome State Fault Refusal :=
  match i with
  | .init resetMs orient bgr inv => Sys2Proof.Machine.execInit resetMs orient bgr inv s
  | .writePixel color x y => Sys2Proof.Machine.execWritePixel color x y s
  | .drawImage x y w h => Sys2Proof.Machine.execDrawImage x y w h s
  | .clear color => Sys2Proof.Machine.execClear color s
  | .flush => Sys2Proof.Machine.execFlush s
  | .sleep => Sys2Proof.Machine.execSleep s
  | .wake => Sys2Proof.Machine.execWake s
  | .close => Sys2Proof.Machine.execClose s

end Sys2Proof.Machine
end

