-- ==== Sys2Proof/Machine/Assembler.lean ====
section
/-!
DEFINITION. The command assembler ASM (30_encoding R126): what one accepted CMD word does.
-/

namespace Sys2Proof.Machine

/-- The header and operand words the assembler holds. -/
def asmWords (s : State) : List Word := s.asm.hdr :: s.asm.opnd

/-- `start()`: the command's last word was accepted (R126). -/
def startCommand (s : State) : State :=
  { s with asm := { s.asm with phase := .none }, busy := true, sp := .run (opField s.asm.hdr) .begin 0 }

/-- The XY and WH words of the image being received (R122, R123, R126). -/
def imageXY (s : State) : Word := s.asm.opnd.getD 0 0
def imageWH (s : State) : Word := s.asm.opnd.getD 1 0

/-- W and H of the image being received. -/
def imageW (s : State) : Nat := (loHalf (imageWH s)).toNat
def imageH (s : State) : Nat := (hiHalf (imageWH s)).toNat

/-- The PB index of pixel `k` of the image being received: column X + k mod W, row Y + k div W (R247). -/
def imagePixelIndex (s : State) (k : Nat) : Nat :=
  pixelIndex s.params ((loHalf (imageXY s)).toNat + k % imageW s) ((hiHalf (imageXY s)).toNat + k / imageW s)

/-- One pixel more has been received. -/
def countPixel (s : State) : State := { s with asm := { s.asm with k := s.asm.k + 1 } }

/-- One pixel of a data word (R252): stored if the verdict is OK; a pixel after the image's last is ignored. -/
def drawPixel (p : Half) (s : State) : Out :=
  if s.asm.k < imageW s * imageH s then
    if s.asm.verdict = .ok then
      andThen (storePixel (imagePixelIndex s s.asm.k) p s) fun t => .next (countPixel t)
    else .next (countPixel s)
  else .next s

/-- `draw_data(w)` (R252): P0, then P1. -/
def drawData (w : Word) (s : State) : Out := andThen (drawPixel (loHalf w) s) (drawPixel (hiHalf w))

/-- The header word of a new command (R126, phase NONE). -/
def acceptHeader (w : Word) (s : State) : State :=
  let t := { s with asm := { s.asm with hdr := w } }
  match operandWords (opField w) with
  | 0 => startCommand t
  | n => { t with asm := { t.asm with phase := .oper, opnd := [], left := n } }

/-- An operand word (R126, phase OPER): after the last, start, or for DRAW_IMAGE the verdict and the data phase. -/
def acceptOperand (w : Word) (s : State) : State :=
  let t := { s with asm := { s.asm with opnd := s.asm.opnd ++ [w], left := s.asm.left - 1 } }
  if t.asm.left = 0 then
    if opField t.asm.hdr = 2 then startCommand t
    else
      let left := ceilDiv (imageW t * imageH t) 2
      let u := { t with asm := { t.asm with verdict := verdictOf (asmWords t) t, k := 0, left := left } }
      if left = 0 then startCommand u else { u with asm := { u.asm with phase := .data } }
  else t

/-- A data word (R126, phase DATA). -/
def acceptData (w : Word) (s : State) : Out :=
  andThen (drawData w s) fun t =>
    let u := { t with asm := { t.asm with left := t.asm.left - 1 } }
    .next (if u.asm.left = 0 then startCommand u else u)

/-- `accept(w)`: called once per accepted CMD word (R126). -/
def accept (w : Word) (s : State) : Out :=
  match s.asm.phase with
  | .none => .next (acceptHeader w s)
  | .oper => .next (acceptOperand w s)
  | .data => acceptData w s

end Sys2Proof.Machine
end

