-- ==== Sys2Proof/Machine/HostPort.lean ====
section
/-!
DEFINITION. The host's register accesses (10_state R31 to R48, 20_memory R87 to R91) and the close request (43_driver_ops
R302, R303).
-/

namespace Sys2Proof.Machine

/-- A write to CMD: accepted at once when CMD_READY = 1, else held (R32, R367) [log 8]. -/
def writeCmd (w : Word) (s : State) : Out :=
  if cmdReady s then accept w s else .next { s with held := some w }

/-- The core is in a Delay hold or in an Acquire hold (R174, R176). -/
def inTimedHold (s : State) : Bool := s.delay.isSome || (s.lockReq && !s.locked)

/-- The close request of R302; during a Delay or Acquire hold the command is abandoned at once (R303). -/
def closeRequest (s : State) : State :=
  if s.state = .closed then s
  else if s.busy then
    let t := { s with closePending := true }
    if inTimedHold t ∧ t.xfer.pending = false then abandon t else t
  else if s.asm.phase = .none then { s with state := .closed }
  else complete .closedError { s with asm := { s.asm with phase := .none }, state := .closed }

/-- A write to CTRL: DONE_IE, then the close request if bit 1 is written 1 (R38, R39, R302) [log 27]. -/
def writeCtrl (w : Word) (s : State) : State :=
  let t := { s with doneIe := w.getLsbD 0 }
  if w.getLsbD 1 then closeRequest t else t

/-- A write to INT clears the bits written as 1 (R40). -/
def writeInt (w : Word) (s : State) : State :=
  { s with intDone := s.intDone && !w.getLsbD 0, intErr := s.intErr && !w.getLsbD 1 }

/-- A store to a register offset; read-only and reserved offsets ignore it (R31, R48). -/
def writeReg (offset : Nat) (w : Word) (s : State) : Out :=
  match offset with
  | 0x00 => writeCmd w s
  | 0x08 => .next (writeCtrl w s)
  | 0x0C => .next (writeInt w s)
  | _ => .next s

/-- The address is in the register block (R88). -/
def inBlock (p : Params) (addr : Nat) : Bool := decide (p.regBase ≤ addr) && decide (addr < p.regBase + 0x40)

/-- A naturally aligned 32-bit access of the block (R87). -/
def definedAccess (p : Params) (addr width : Nat) : Bool :=
  decide (width = 32) && decide ((addr - p.regBase) % 4 = 0)

/-- Do `body` at the access's offset if the block defines the access, else refuse it (R87, R88, U7, U8) [log 11]. -/
def guardAccess (addr width : Nat) (body : Nat → Out) (s : State) : Out :=
  if inBlock s.params addr then
    if definedAccess s.params addr width then body (addr - s.params.regBase) else .refused .undefinedAccess
  else .refused .outsideBlock

/-- One host access (R90): a load has no effect but its value. -/
def hostAccess (a : Access) (s : State) : Out :=
  match a with
  | .read addr width => guardAccess addr width (fun off => .next { s with rdata := readReg s off }) s
  | .write addr width v => guardAccess addr width (fun off => writeReg off v s) s

/-- A store to CTRL, the one access that does not wait for the command port (R39). -/
def isCtrlStore (p : Params) (a : Access) : Bool :=
  match a with
  | .read _ _ => false
  | .write addr width _ => decide (addr = p.regBase + ctrlOffset) && decide (width = 32)

/-- The HOST's step: the access, if the HOST can make it. While a CMD write of its own is held the HOST is in a hold and
has no step but a CTRL store (R20, R32, R39), so its accesses take effect in its program order (R96) [log 8]. -/
def hostStep (a : Access) (s : State) : Out :=
  if s.held.isSome && !isCtrlStore s.params a then .next s else hostAccess a s

end Sys2Proof.Machine
end

