-- ==== Sys2Proof/Machine/Engine.lean ====
section
/-!
DEFINITION. How the agents move (00_scope R5, 20_memory R96, 40_line_control R160): the SEQ core's step, the answers of
TRANSPORT, TIMER and ARBITER, block reset, and one turn of the schedule.
-/

namespace Sys2Proof.Machine

/-- An executing command whose header is illegal completes with its verdict and no other effect (R130, R326); for
DRAW_IMAGE the verdict is the one found at its WH word (R126). -/
def completeIllegal (s : State) : Out :=
  match s.sp with
  | .run _ .begin _ =>
    if opField s.asm.hdr = 3 then .next (complete s.asm.verdict s)
    else .next (complete (verdictOf (asmWords s) s) s)
  | _ => .fault .sequence

/-- One step of the executing command: decode the assembler's words and run the instruction's meaning (R270) [log 28]. -/
def runCommand (s : State) : Out :=
  match decode (asmWords s) with
  | .ok (i, _) => exec i s
  | .error (.reservedOpcode _) => completeIllegal s
  | .error (.reservedBits _) => completeIllegal s
  | .error (.missingOperand _) => .fault .sequence
  | .error .noHeader => .fault .sequence

/-- The core waits for another agent: a Transfer, Delay or Acquire hold (R20, R160). -/
def inHold (s : State) : Bool := s.xfer.pending || inTimedHold s

/-- Before each micro-operation SEQ tests CLOSE_PENDING (R270, R303). The model also tests it before a command's first
step, which holds its check and first assignments and no micro-operation: the spec leaves that open [log 31]. -/
def proceed (s : State) : Out :=
  if s.closePending = true ∧ s.xfer.pending = false then .next (abandon s) else runCommand s

/-- The SEQ core's step. Idle, it accepts the held word if the port is ready (R32, R367); in a hold it has no step (R20,
R380); otherwise the executing command goes on. -/
def coreStep (s : State) : Out :=
  match s.sp with
  | .idle =>
    match s.held with
    | none => .next s
    | some w => if cmdReady s then accept w { s with held := none } else .next s
  | .run _ _ _ => if inHold s ∧ (s.closePending = false ∨ s.xfer.pending = true) then .next s else proceed s

/-- TRANSPORT answers: the answer is recorded, then abandonment or the command's next step (R170, R303, R328). An answer
with no request outstanding is ignored [log 9]. -/
def transportAnswer (a : Answer) (s : State) : Out :=
  if s.xfer.pending then proceed (recordAnswer a s) else .next s

/-- TIMER answers the pending delay (R174) [log 9]. -/
def timerAnswer (s : State) : Out :=
  if s.delay.isSome then proceed { s with delay := none, reply := some .ok } else .next s

/-- ARBITER grants a waiting request (R176, R178) [log 9]. -/
def grantLock (s : State) : Out :=
  if s.lockReq && !s.locked then proceed { s with reply := some .ok } else .next s

/-- Block reset (R360, R361) [log 25]: every piece of SEQ state takes its reset value, with a new draw of the
memories' free contents; the parameters, the schedule and the host's own latch are not SEQ state. -/
def blockReset (s : State) : State :=
  { State.powerOn s.params (s.draw + 1) with turns := s.turns, rdata := s.rdata }

/-- One agent's move. -/
def move (m : Move) (s : State) : Out :=
  match m with
  | .rest => .next s
  | .core => coreStep s
  | .transport a => transportAnswer a s
  | .timer => timerAnswer s
  | .grant => grantLock s
  | .lateAnswer => .next s
  | .blockReset => .next (blockReset s)

/-- One turn: the HOST's access, if any and if it can make it, takes effect first, then the move (R40, R90, R328)
[log 8, 10]. -/
def takeTurn (t : Turn) (s : State) : Out :=
  match t.host with
  | none => move t.move s
  | some a => andThen (hostStep a s) (move t.move)

/-- One step of the machine: the schedule's next turn, or, when it is empty, the core [log 2]. -/
def machineStep (s : State) : Out :=
  match s.turns with
  | [] => coreStep s
  | t :: rest => takeTurn t { s with turns := rest }

/-! ## Where a command stands to be run next -/

/-- The core idle at the command port, with nothing in the way of the command that `placeCommand` puts there. -/
def clearedForCommand (s : State) : State :=
  { s with turns := [], held := none, busy := false, closePending := false, sp := .idle, asm := Assembler.empty,
           xfer := { s.xfer with pending := false }, delay := none, lockReq := s.lockReq && s.locked, reply := none }

/-- Accept words one by one. -/
def acceptAll : List Word → State → State
  | [], s => s
  | w :: ws, s =>
    match accept w s with
    | .next t => acceptAll ws t
    | .fault _ => s
    | .refused _ => s

/-- The state in which the assembler has accepted exactly the words `ws` of one command. -/
def placeCommand (ws : List Word) (s : State) : State := acceptAll ws (clearedForCommand s)

end Sys2Proof.Machine
end

