-- ==== Sys2Proof/Safety.lean ====
section
/-!
DEFINITION. What claims about SEQ are stated in: the cooperating environment and the run of one command under it
(70_reset_and_hazards R381), the well-framed wire trace (41_command_encoder R219, 70_reset_and_hazards R370 to R373), the
wire forms of the commands, and the invariant of the machine.
-/

namespace Sys2Proof.Machine

/-! ## A command's run -/

/-- The turn a cooperating environment takes (R381): TRANSPORT answers an outstanding request with `a`, TIMER answers a
pending delay, ARBITER grants a waiting request, and otherwise the core moves. -/
def coopTurn (a : Answer) (s : State) : Turn :=
  if s.xfer.pending then ⟨none, .transport a⟩
  else if s.delay.isSome then ⟨none, .timer⟩
  else if s.lockReq && !s.locked then ⟨none, .grant⟩
  else ⟨none, .core⟩

/-- At most `fuel` steps of the machine under a cooperating environment, until SP is IDLE. TRANSPORT gives the answers of
the list in order, and OK after the last. The schedule of `s` is not consulted: each step's schedule is its one turn. -/
def drive : Nat → List Answer → State → Out
  | 0, _, s => .next s
  | fuel + 1, answers, s =>
    match s.sp with
    | .idle => .next s
    | .run _ _ _ =>
      match step { s with turns := [coopTurn (answers.headD .ok) s] } with
      | .next t => drive fuel (if s.xfer.pending then answers.tail else answers) t
      | .fault r => .fault r
      | .refused r => .refused r

/-- The schedule is empty, no host access is waiting and no answer is being handed over: the core is the one to move. -/
def Quiet (s : State) : Prop :=
  s.turns = [] ∧ s.reply = none ∧ s.xfer.pending = false ∧ s.delay = none ∧ (s.lockReq && !s.locked) = false ∧
    s.closePending = false

/-- SP is at step `st` with counter `n` of some command. -/
def AtStep (s : State) (st : SeqStep) (n : Nat) : Prop := ∃ op, s.sp = .run op st n

/-- Accept the words of a list one after another (R126). -/
def acceptWords : List Word → State → Out
  | [], s => .next s
  | w :: ws, s => andThen (accept w s) (acceptWords ws)

/-- Pixel `i` of an image whose data words are `ws`: P0 or P1 of word i div 2 (R124, R247). -/
def wordPixel (ws : List Word) (i : Nat) : Half :=
  if i % 2 = 0 then loHalf (ws.getD (i / 2) 0) else hiHalf (ws.getD (i / 2) 0)

/-! ## Bytes a step stages -/

/-- The bytes the executing command's step stages into TB: those of the transfer it requests, if it requests one. -/
def stagedBytes (i : Instr) (s : State) : List Byte :=
  match s.reply with
  | some _ => []
  | none =>
    match i with
    | .init _ _ _ _ =>
      match s.sp with
      | .run _ (.group .initEntry .cmdByte) n =>
        match s.params.initTable[n]? with
        | some e => [resolveCmd s e.cmd]
        | none => []
      | .run _ (.group .initEntry .params) n =>
        match s.params.initTable[n]? with
        | some e => e.params.map (resolveParam s)
        | none => []
      | _ => []
    | .flush =>
      match s.sp with
      | .run _ (.group .caset .cmdByte) _ => [s.params.bytes.caset]
      | .run _ (.group .caset .params) _ => casetParams s
      | .run _ (.group .raset .cmdByte) _ => [s.params.bytes.raset]
      | .run _ (.group .raset .params) _ => rasetParams s
      | .run _ (.group .ramwr .cmdByte) _ => [s.params.bytes.ramwr]
      | .run _ .chunk k => chunkBytes s k
      | _ => []
    | .sleep =>
      match s.sp with
      | .run _ (.group .slpin .cmdByte) _ => [s.params.bytes.slpin]
      | _ => []
    | .wake =>
      match s.sp with
      | .run _ (.group .slpout .cmdByte) _ => [s.params.bytes.slpout]
      | _ => []
    | .writePixel _ _ _ => []
    | .drawImage _ _ _ _ => []
    | .clear _ => []
    | .close => []

/-! ## The well-framed wire trace -/

/-- What a reader of the wire trace knows after an event: the line levels, whether SEQ holds a shared bus's lock, and
whether a command byte has been sent in the present frame. -/
structure WireLevels where
  cs : Bool
  rst : Bool
  locked : Bool
  armed : Bool
  deriving DecidableEq, Repr

/-- The levels at block reset (R49, R363). -/
def WireLevels.start : WireLevels := { cs := true, rst := true, locked := false, armed := false }

/-- One event, if it is allowed. A level event is a change (R50). CS(0) opens a frame: the panel is not held in reset, and
a shared bus is locked (R101, R373). RST and the lock events stand outside frames (R169, R177, R179). A transfer is
inside a frame with the panel out of reset, carries at least one byte, and is one byte in Command mode; Data bytes
follow a command byte of their frame (R134, R219, R370 to R373). A WAIT is of at least 1 ms (R50). -/
def WireLevels.after (shared : Bool) (l : WireLevels) (e : Event) : Option WireLevels :=
  match e with
  | .cs false => if l.cs && l.rst && (l.locked == shared) then some { l with cs := false, armed := false } else none
  | .cs true => if l.cs then none else some { l with cs := true }
  | .rst v => if l.cs && (v != l.rst) then some { l with rst := v } else none
  | .tx m bytes _ =>
    if !l.cs && l.rst && !bytes.isEmpty then
      match m with
      | .command => if bytes.length = 1 then some { l with armed := true } else none
      | .data => if l.armed then some l else none
    else none
  | .wait ms => if ms = 0 then none else some l
  | .lock => if shared && l.cs && !l.locked then some { l with locked := true } else none
  | .unlock => if shared && l.cs && l.locked then some { l with locked := false } else none

/-- Read a trace from given levels; none if some event is not allowed. -/
def readTrace (shared : Bool) : WireLevels → List Event → Option WireLevels
  | l, [] => some l
  | l, e :: rest =>
    match l.after shared e with
    | some l' => readTrace shared l' rest
    | none => none

/-- Every event of the trace is allowed where it stands. -/
def wellFramed (shared : Bool) (trace : List Event) : Bool := (readTrace shared .start trace).isSome

/-- The Data-mode bytes that follow a command in its frame, in trace order: those of its own group, before the next
command and before the frame's end (R51, R134). -/
def dataBytes : List Event → List Byte
  | [] => []
  | .tx .data bytes _ :: rest => bytes ++ dataBytes rest
  | .tx .command _ _ :: _ => []
  | .cs _ :: _ => []
  | .rst _ :: rest => dataBytes rest
  | .wait _ :: rest => dataBytes rest
  | .lock :: rest => dataBytes rest
  | .unlock :: rest => dataBytes rest

/-- What a panel receives by a trace (R51): for each `TX(C, ...)` within a frame, from `CS(0)` to the next `CS(1)`, its
bytes and the Data-mode bytes after it. `inFrame` says whether the trace begins within a frame. -/
def received (inFrame : Bool) : List Event → List (List Byte × List Byte)
  | [] => []
  | .cs level :: rest => received (!level) rest
  | .tx .command bytes _ :: rest => (if inFrame then [(bytes, dataBytes rest)] else []) ++ received inFrame rest
  | .tx .data _ _ :: rest => received inFrame rest
  | .rst _ :: rest => received inFrame rest
  | .wait _ :: rest => received inFrame rest
  | .lock :: rest => received inFrame rest
  | .unlock :: rest => received inFrame rest

/-! ## Wire forms -/

/-- An OK transfer in Command mode and in Data mode. -/
def txC (b : Byte) : Event := .tx .command [b] .ok
def txD (bytes : List Byte) : Event := .tx .data bytes .ok

/-- The events of `Delay(ms)` (R174). -/
def waitEvents (ms : Half) : List Event := if ms = 0 then [] else [.wait ms]

/-- A group answered OK (R173, R180). -/
def groupEvents (cmd : Byte) (params : List Byte) : List Event :=
  txC cmd :: if params = [] then [] else [txD params]

/-- A frame around `body` (R179), with the lock events of a shared bus. -/
def frameEvents (shared : Bool) (body : List Event) : List Event :=
  (if shared then [.lock] else []) ++ [.cs false] ++ body ++ [.cs true] ++ if shared then [.unlock] else []

/-- The init table's entries, each answered OK (R204), with CFG as INIT set it. -/
def initTableEvents (s : State) (table : List InitEntry) : List Event :=
  table.flatMap fun e => groupEvents (resolveCmd s e.cmd) (e.params.map (resolveParam s)) ++ waitEvents e.delayMs

/-- The wire form of an INIT that completes OK (R272). -/
def initEvents (resetMs : Half) (s : State) : List Event :=
  [.rst false] ++ waitEvents resetMs ++ [.rst true] ++ waitEvents s.params.tResetRecovery ++
    frameEvents s.params.sharedBus (initTableEvents s s.params.initTable) ++ waitEvents s.params.tPostInit

/-- The transfers of SetAddressWindow, each answered OK (R206). -/
def windowEvents (s : State) : List Event :=
  groupEvents s.params.bytes.caset (casetParams s) ++ groupEvents s.params.bytes.raset (rasetParams s) ++
    groupEvents s.params.bytes.ramwr []

/-- The transfers of a FLUSH that completes OK after sending a window (R206, R213). -/
def flushTransfers (s : State) : List Event :=
  windowEvents s ++ (List.range (chunkCount s)).map fun k => txD (chunkBytes s k)

/-- The wire form of a FLUSH that completes OK after sending a window (R220). -/
def flushEvents (s : State) : List Event :=
  frameEvents s.params.sharedBus (flushTransfers s)

/-- A transfer's event with the answer ERR in place of OK. -/
def failed : Event → Event
  | .tx m bytes _ => .tx m bytes .err
  | e => e

/-- The wire form of a FLUSH whose transfer `k` (from 0) is answered ERR: no later transfer, and AbortFrame (R282). -/
def flushFailureEvents (s : State) (k : Nat) : List Event :=
  frameEvents s.params.sharedBus ((flushTransfers s).take k ++ (((flushTransfers s).drop k).take 1).map failed)

/-- The wire form of a SLEEP or WAKE that completes OK: one command byte, then the delay (R289, R294). -/
def powerEvents (shared : Bool) (cmd : Byte) (ms : Half) : List Event :=
  frameEvents shared [txC cmd] ++ waitEvents ms

/-! ## The machine without pixel contents -/

/-- The state with every pixel value, staged byte and recorded event forgotten. -/
def eraseData (s : State) : State := { s with pb := [], tb := [], draw := 0, trace := [] }

/-- An outcome with its next state erased. -/
def eraseOut (o : Out) : Out :=
  match o with
  | .next s => .next (eraseData s)
  | .fault r => .fault r
  | .refused r => .refused r

/-- A number of steps in which every command completes under a cooperating environment. -/
def commandBound (s : State) : Nat := 8 * s.params.initTable.length + 2 * chunkCount s + 40

/-! ## The invariant -/

/-- The states in which no command is in its middle: UNINIT, READY, SLEEPING and CLOSED (R327). -/
def restingState (st : DriverState) : Bool :=
  match st with
  | .uninit => true
  | .ready => true
  | .sleeping => true
  | .closed => true
  | .resetting => false
  | .initializing => false
  | .flushing => false

/-- The levels of cs_n, rst_n and LOCKED at a step: a frame is open from Select to Deselect, the lock is held from Acquire
to Release, and reset is low from ResetLow to ResetHigh (R169, R179). -/
def stepLevels (st : SeqStep) : Bool × Bool × Bool :=
  match st with
  | .begin => (true, true, false)
  | .resetLow => (true, true, false)
  | .resetHold => (true, false, false)
  | .resetHigh => (true, false, false)
  | .recovery => (true, true, false)
  | .acquire => (true, true, false)
  | .select => (true, true, true)
  | .group _ _ => (false, true, true)
  | .pixelMode => (false, true, true)
  | .chunk => (false, true, true)
  | .deselect => (false, true, true)
  | .release => (true, true, true)
  | .postDelay => (true, true, false)
  | .abortDeselect => (false, true, true)
  | .abortRelease => (true, true, true)
  | .closeDeselect => (true, true, false)
  | .closeRelease => (true, true, false)
  | .closeResetHigh => (true, true, false)

/-- The level dc has at a step that requests a transfer (R165, R166, R219). -/
def stepMode (st : SeqStep) : Option Bool :=
  match st with
  | .group _ .cmdByte => some false
  | .group _ .params => some true
  | .chunk => some true
  | _ => none

/-- A step at which a command byte has been sent in the frame and Data bytes may follow. -/
def stepArmed (st : SeqStep) : Bool :=
  match st with
  | .group _ .dataMode => true
  | .group _ .params => true
  | .pixelMode => true
  | .chunk => true
  | _ => false

/-- A step with a Delay hold. -/
def stepDelays (st : SeqStep) : Bool :=
  match st with
  | .resetHold => true
  | .recovery => true
  | .group .initEntry .settle => true
  | .postDelay => true
  | _ => false

/-- A step of a group whose parameter list is empty or not. -/
def groupHas (params : Bool) (m : GroupStep) : Bool :=
  match m with
  | .cmdMode => true
  | .cmdByte => true
  | .dataMode => params
  | .params => params
  | .settle => false

/-- The steps of each command's pseudocode, with the counters they take (R34). -/
def stepOf (i : Instr) (s : State) (st : SeqStep) (n : Nat) : Bool :=
  match i with
  | .init _ _ _ _ =>
    match st with
    | .begin | .resetLow | .resetHold | .resetHigh | .recovery | .acquire | .select | .deselect | .release
    | .postDelay | .abortDeselect | .abortRelease => true
    | .group .initEntry m =>
      match s.params.initTable[n]? with
      | some e => groupHas (!e.params.isEmpty) m || m == .settle
      | none => false
    | _ => false
  | .flush =>
    match st with
    | .begin | .acquire | .select | .pixelMode | .deselect | .release | .abortDeselect | .abortRelease => true
    | .group .caset m => groupHas true m
    | .group .raset m => groupHas true m
    | .group .ramwr m => groupHas false m
    | .chunk => decide (n < chunkCount s)
    | _ => false
  | .sleep =>
    match st with
    | .begin | .acquire | .select | .deselect | .release | .postDelay | .abortDeselect | .abortRelease => true
    | .group .slpin m => groupHas false m
    | _ => false
  | .wake =>
    match st with
    | .begin | .acquire | .select | .deselect | .release | .postDelay | .abortDeselect | .abortRelease => true
    | .group .slpout m => groupHas false m
    | _ => false
  | .close =>
    match st with
    | .begin | .closeDeselect | .closeRelease | .closeResetHigh => true
    | _ => false
  | .writePixel _ _ _ => st == .begin
  | .drawImage _ _ _ _ => st == .begin
  | .clear _ => st == .begin

/-- STATE while a command is at a step (R271, R272, R279, R290, R295). -/
def stateAt (i : Instr) (st : SeqStep) (d : DriverState) : Bool :=
  match st with
  | .begin => restingState d
  | _ =>
    match i with
    | .init _ _ _ _ =>
      match st with
      | .resetLow | .resetHold | .resetHigh | .recovery => d == .resetting
      | _ => d == .initializing
    | .flush => d == .flushing
    | .sleep => d == .ready
    | .wake => d == .sleeping
    | .close => restingState d && d != .closed
    | .writePixel _ _ _ => true
    | .drawImage _ _ _ _ => true
    | .clear _ => true

/-- The image being received lies in the panel (R248, R254). -/
def imageFits (s : State) : Bool :=
  imageInPanel s.params (loHalf (imageXY s)).toNat (hiHalf (imageXY s)).toNat (imageW s) (imageH s)

/-- What an OK verdict on a DRAW_IMAGE says (R248, R327): the image lies in the panel, and STATE is one in which it
executes. -/
def verdictOk (s : State) : Bool :=
  s.asm.verdict != .ok || (imageFits s && (s.state == .ready || s.state == .sleeping))

/-- ASM between words (R126): what the phase says of the words received and still expected. -/
def assemblerOk (s : State) : Bool :=
  match s.asm.phase with
  | .none => true
  | .oper =>
    decide (1 ≤ s.asm.left) && decide (s.asm.opnd.length + s.asm.left = operandWords (opField s.asm.hdr))
  | .data =>
    opField s.asm.hdr == 3 && decide (s.asm.opnd.length = 2) && decide (1 ≤ s.asm.left) &&
    decide (imageW s * imageH s ≤ s.asm.k + 2 * s.asm.left) && verdictOk s &&
    (rsvzClear s.asm.hdr || s.asm.verdict != .ok)

/-- What SP says of the rest of the state while a command executes (R34, R126, R270). -/
def commandOk (s : State) : Bool :=
  match s.sp with
  | .idle => restingState s.state
  | .run op st n =>
    op == opField s.asm.hdr && s.asm.phase == .none &&
    match decode (asmWords s) with
    | .ok (i, _) =>
      stepOf i s st n && stateAt i st s.state && (st == .begin || i != .flush || s.dw.valid) &&
      (op != 3 || verdictOk s)
    | .error (.reservedOpcode _) => st == .begin && restingState s.state
    | .error (.reservedBits _) => st == .begin && restingState s.state && (op != 3 || s.asm.verdict != .ok)
    | .error (.missingOperand _) => false
    | .error .noHeader => false

/-- The levels the sequence pointer stands for (R179, R300). -/
def spLevels (sp : SeqPtr) : Bool × Bool × Bool :=
  match sp with
  | .idle => (true, true, false)
  | .run _ st _ => stepLevels st

/-- A property of the step SP is at, and what it is when SP is IDLE. -/
def spStep {α : Type} (sp : SeqPtr) (idle : α) (f : SeqStep → α) : α :=
  match sp with
  | .idle => idle
  | .run _ st _ => f st

/-- The invariant of the machine: what holds between any two steps from reset. -/
structure Inv (s : State) : Prop where
  /-- the parameters meet their constraints (R6, R7, R10) -/
  params : s.params.wellFormed = true
  /-- both memories are in canonical form and inside their spaces (R82, R84) -/
  pbForm : s.pb.wf = true
  pbRange : ∀ c ∈ s.pb, c.1 < pbSize s.params
  tbForm : s.tb.wf = true
  tbRange : ∀ c ∈ s.tb, c.1 < s.params.tbufBytes
  /-- R41: a valid window is inside the panel, an empty one has coordinates 0 -/
  window : (s.dw.valid = true ∧ s.dw.inPanel s.params = true) ∨ s.dw = Window.empty
  /-- no answer is being handed over -/
  noReply : s.reply = none
  /-- BUSY is 1 exactly while a command executes (R34, R35) -/
  busy : s.busy = spStep s.sp false fun _ => true
  /-- the lines and LOCKED are where the step says (R179, R300) -/
  levels : (s.csN, s.rstN, s.locked) = spLevels s.sp
  /-- the lock request is raised on a shared bus only, as long as the lock is held, and while Acquire waits (R176, R177) -/
  lockShared : s.lockReq = true → s.params.sharedBus = true
  lockKept : s.locked = true → s.params.sharedBus = true → s.lockReq = true
  lockWait : s.lockReq = true → s.locked = false → spStep s.sp false (fun st => st == .acquire) = true
  /-- a transfer is outstanding only at a step that requests one, with 1 to TBUF_BYTES bytes (R84, R161) -/
  transfer : s.xfer.pending = true →
    spStep s.sp false (fun st => (stepMode st).isSome) = true ∧ 1 ≤ s.xfer.len ∧ s.xfer.len ≤ s.params.tbufBytes
  /-- a Command-mode transfer is one byte (R219) -/
  oneByte : s.xfer.pending = true → s.dc = false → s.xfer.len = 1
  /-- dc has the level the step's transfer needs (R371) -/
  mode : ∀ b, spStep s.sp none stepMode = some b → s.dc = b
  /-- a delay is pending only in a Delay hold, and is at least 1 ms (R174) -/
  delaying : ∀ ms, s.delay = some ms → ms ≠ 0 ∧ spStep s.sp false stepDelays = true
  /-- CLOSE_PENDING waits only for a micro-operation or a transfer's answer, never in a Delay or Acquire hold (R303) -/
  closing : s.closePending = true → s.busy = true ∧ inTimedHold s = false
  /-- ASM, SP, STATE and the operands agree (R126, R270, R271) -/
  assembler : assemblerOk s = true
  command : commandOk s = true
  /-- no words are being assembled into a command while one executes (R97) -/
  notBoth : s.busy = true → s.asm.phase = .none
  /-- the trace is well framed and ends at the present levels (R98, R219) -/
  wire : ∃ armed, readTrace s.params.sharedBus .start s.trace =
      some { cs := s.csN, rst := s.rstN, locked := s.locked && s.params.sharedBus, armed := armed } ∧
    (spStep s.sp false stepArmed = true → armed = true)

end Sys2Proof.Machine
end

