-- ==== Sys2Proof/Certificates/Slice0/Obligations.lean ====
section
/-!
DEFINITION. The statements about the machine. Each docstring names the rules it rests on; OBLIGATIONS.json lists them.
-/

open Sys2Proof Sys2Proof.Machine

/-! ## Encoding -/

/-- Decode and encode agree: every command, with every operand at every value (R120 to R129). Decoding the header and
operand words of any command, followed by any words, gives the command and the words after it. -/
def Obligations.DecodeEncodeRoundTrip : Prop :=
  ∀ (i : Instr) (rest : List Word), decode (encode i ++ rest) = .ok (i, rest)

/-- Every word list the decoder reads a command from is that command's encoding: no bit is dropped (R127, R130). -/
def Obligations.EncodeDecodeRoundTrip : Prop :=
  ∀ (ws : List Word) (i : Instr) (rest : List Word), decode ws = .ok (i, rest) → ws = encode i ++ rest

/-- R130: a reserved opcode and a set must-be-zero bit (the masks of R127) are rejected by name, whatever follows. -/
def Obligations.IllegalHeadersRejected : Prop :=
  ∀ (hdr : Word) (rest : List Word),
    ((hdr.toNat / 2 ^ 24 = 0 ∨ 9 ≤ hdr.toNat / 2 ^ 24) →
      decode (hdr :: rest) = .error (.reservedOpcode (BitVec.ofNat 8 (hdr.toNat / 2 ^ 24)))) ∧
    (((hdr.toNat / 2 ^ 24 = 1 ∧ hdr &&& 0x00F00000 ≠ 0) ∨
      ((hdr.toNat / 2 ^ 24 = 2 ∨ hdr.toNat / 2 ^ 24 = 4) ∧ hdr &&& 0x00FF0000 ≠ 0) ∨
      ((hdr.toNat / 2 ^ 24 = 3 ∨ (5 ≤ hdr.toNat / 2 ^ 24 ∧ hdr.toNat / 2 ^ 24 ≤ 8)) ∧ hdr &&& 0x00FFFFFF ≠ 0)) →
      decode (hdr :: rest) = .error (.reservedBits (BitVec.ofNat 8 (hdr.toNat / 2 ^ 24))))

/-- The worked encodings of R138 and the vectors V-ENC-1 to V-ENC-13 of 95_test_vectors section 2.1 decode to the commands
they stand for, or are rejected by name, with the lengths they are consumed at (R125, R130); and one more CLEAR word. -/
def Obligations.SpecWordsDecode : Prop :=
  decode [0x0108000A] = .ok (.init 10 0 false true, []) ∧
  decode [0x0105000A] = .ok (.init 10 1 true false, []) ∧
  decode [0x0200F800, 0x00050003] = .ok (.writePixel 0xF800 3 5, []) ∧
  decode [0x03000000, 0x00280014, 0x00100028] = .ok (.drawImage 20 40 40 16, []) ∧
  commandLength [0x03000000, 0x00280014, 0x00100028] = some (3 + 320) ∧
  decode [0x03000000, 0x00020001, 0x00010003, 0xBBBBAAAA, 0x0000CCCC] =
    .ok (.drawImage 1 2 3 1, [0xBBBBAAAA, 0x0000CCCC]) ∧
  [0, 1, 2].map (wordPixel [0xBBBBAAAA, 0x0000CCCC]) = [0xAAAA, 0xBBBB, 0xCCCC] ∧
  commandLength [0x03000000, 0x00020001, 0x00010003] = some 5 ∧
  decode [0x03000000, 0x00000000, 0x00050000] = .ok (.drawImage 0 0 0 5, []) ∧
  commandLength [0x03000000, 0x00000000, 0x00050000] = some 3 ∧
  decode [0x04000000] = .ok (.clear 0, []) ∧
  decode [0x0400001F] = .ok (.clear 0x1F, []) ∧
  decode [0x05000000] = .ok (.flush, []) ∧
  decode [0x06000000] = .ok (.sleep, []) ∧
  decode [0x07000000] = .ok (.wake, []) ∧
  decode [0x08000000] = .ok (.close, []) ∧
  decode [0x00000000] = .error (.reservedOpcode 0) ∧ commandLength [0x00000000] = some 1 ∧
  decode [0x09000000] = .error (.reservedOpcode 9) ∧ commandLength [0x09000000] = some 1 ∧
  decode [0xFF123456] = .error (.reservedOpcode 0xFF) ∧ commandLength [0xFF123456] = some 1 ∧
  decode [0x01100000] = .error (.reservedBits 1) ∧
  decode [0x02FF0000, 0x00000000] = .error (.reservedBits 2) ∧ commandLength [0x02FF0000] = some 2 ∧
  decode [0x03000001, 0x00000000, 0x00010002, 0x22221111] = .error (.reservedBits 3) ∧
  commandLength [0x03000001, 0x00000000, 0x00010002] = some 4 ∧
  decode [0x05000001] = .error (.reservedBits 5) ∧
  decode [0x04FFFFFF] = .error (.reservedBits 4)

/-- R136, R137: the sums a mnemonic expands to are stores to CMD of the command's encoded words, then its pixel pairs; an
operand outside its field width is refused; and what the lines W32, R32, .word, WAITIDLE and ABORT expand to. That
WAITIDLE is one read of its loop, read again while STATUS bit 4 is 1, is the model's form of the loop (log entry 26). -/
def Obligations.HostLinesExpandToEncodedWords : Prop :=
  ∀ base : Nat,
    let stores := fun ws : List Word => some (ws.map fun w => Access.write base 32 w)
    (∀ ms o b v, ms < 2 ^ 16 → o < 4 → b < 2 → v < 2 →
      (HostLine.init ms o b v).expand base =
        stores (encode (.init (BitVec.ofNat 16 ms) (BitVec.ofNat 2 o) (decide (b = 1)) (decide (v = 1))))) ∧
    (∀ x y c, x < 2 ^ 16 → y < 2 ^ 16 → c < 2 ^ 16 →
      (HostLine.writePixel x y c).expand base =
        stores (encode (.writePixel (BitVec.ofNat 16 c) (BitVec.ofNat 16 x) (BitVec.ofNat 16 y)))) ∧
    (∀ x y w h ps, x < 2 ^ 16 → y < 2 ^ 16 → w < 2 ^ 16 → h < 2 ^ 16 → ps.length = w * h → (∀ p ∈ ps, p < 2 ^ 16) →
      (HostLine.drawImage x y w h ps).expand base =
        stores (encode (.drawImage (BitVec.ofNat 16 x) (BitVec.ofNat 16 y) (BitVec.ofNat 16 w) (BitVec.ofNat 16 h)) ++
          packPixels (ps.map (BitVec.ofNat 16)))) ∧
    (∀ c, c < 2 ^ 16 → (HostLine.clear c).expand base = stores (encode (.clear (BitVec.ofNat 16 c)))) ∧
    HostLine.flush.expand base = stores (encode .flush) ∧
    HostLine.sleep.expand base = stores (encode .sleep) ∧
    HostLine.wake.expand base = stores (encode .wake) ∧
    HostLine.close.expand base = stores (encode .close) ∧
    (∀ ms o b v, ¬ (ms < 2 ^ 16 ∧ o < 4 ∧ b < 2 ∧ v < 2) → (HostLine.init ms o b v).expand base = none) ∧
    (∀ x y c, ¬ (x < 2 ^ 16 ∧ y < 2 ^ 16 ∧ c < 2 ^ 16) → (HostLine.writePixel x y c).expand base = none) ∧
    (∀ x y w h ps, ¬ (x < 2 ^ 16 ∧ y < 2 ^ 16 ∧ w < 2 ^ 16 ∧ h < 2 ^ 16 ∧ ∀ p ∈ ps, p < 2 ^ 16) →
      (HostLine.drawImage x y w h ps).expand base = none) ∧
    (∀ c, ¬ c < 2 ^ 16 → (HostLine.clear c).expand base = none) ∧
    (∀ off v, off < 0x40 → off % 4 = 0 → v < 2 ^ 32 →
      (HostLine.w32 off v).expand base = some [.write (base + off) 32 (BitVec.ofNat 32 v)] ∧
      (HostLine.r32 off).expand base = some [.read (base + off) 32]) ∧
    (∀ v, v < 2 ^ 32 → (HostLine.word v).expand base = stores [BitVec.ofNat 32 v]) ∧
    HostLine.waitIdle.expand base = some [.read (base + 0x04) 32] ∧
    (∀ s : State, waitIdleAgain (readReg s 0x04) = s.busy) ∧
    (∀ d, d ≤ 1 → (HostLine.abort d).expand base = some [.write (base + 0x08) 32 (BitVec.ofNat 32 (0x2 + d))])

/-! ## Registers and host accesses -/

/-- R33, R35, R126, R320: every field of STATUS at its bits, as a load at offset 0x04 reads it, with the numbers of R33 and
R320 for STATE and RESULT, and its reserved bits 0. -/
def Obligations.StatusRegisterFields : Prop :=
  ∀ s : State, let r := readReg s 0x04
    r = statusReg s ∧
    (r.extractLsb' 0 4).toNat = (match s.state with
      | .uninit => 0 | .resetting => 1 | .initializing => 2 | .ready => 3 | .flushing => 4 | .sleeping => 5
      | .closed => 6) ∧
    r.getLsbD 4 = s.busy ∧ r.getLsbD 5 = !s.busy ∧ r.getLsbD 6 = s.dw.valid ∧ r.getLsbD 7 = s.locked ∧
    (r.extractLsb' 8 4).toNat = (match s.result with
      | .ok => 0 | .outOfBounds => 1 | .transportError => 2 | .initError => 3 | .closedError => 4 | .flushError => 5
      | .invalidState => 6 | .illegalCommand => 7) ∧
    r.extractLsb' 12 8 = s.lastOp ∧
    r.getLsbD 20 = s.xfer.pending ∧ r.getLsbD 21 = s.closePending ∧ r.getLsbD 22 = decide (s.asm.phase ≠ .none) ∧
    r.getLsbD 23 = false ∧ r.getLsbD 24 = s.csN ∧ r.getLsbD 25 = s.dc ∧ r.getLsbD 26 = s.rstN ∧
    r.extractLsb' 27 5 = 0

/-- R31, R38, R40, R42, R44 to R48: what a defined load of each register offset returns, by number (STATUS by its
register, whose fields StatusRegisterFields gives), and that nothing but the value read changes. The field that holds the value read, rdata, is the model's own (log entry
12). -/
def Obligations.HostLoadReturnsTheRegister : Prop :=
  ∀ (s : State) (off : Nat), off < 0x40 → off % 4 = 0 →
    hostAccess (.read (s.params.regBase + off) 32) s = .next { s with rdata := readReg s off } ∧
    (readReg s 0x00).toNat = 0 ∧
    readReg s 0x04 = statusReg s ∧
    (readReg s 0x08).toNat = s.doneIe.toNat ∧
    (readReg s 0x0C).toNat = s.intDone.toNat + 2 * s.intErr.toNat ∧
    (readReg s 0x10).toNat = s.dw.x0.toNat + 2 ^ 16 * s.dw.y0.toNat ∧
    (readReg s 0x14).toNat = s.dw.x1.toNat + 2 ^ 16 * s.dw.y1.toNat ∧
    (s.params.wellFormed = true →
      (readReg s 0x18).toNat = s.params.panelW + 2 ^ 16 * s.params.panelH ∧
      (readReg s 0x24).toNat = s.params.maxChunkBytes) ∧
    (readReg s 0x1C).toNat = s.cfg.orient.toNat + 4 * s.cfg.bgr.toNat + 8 * s.cfg.inv.toNat ∧
    (readReg s 0x20).toNat = s.chunksIssued.toNat + 2 ^ 16 * s.chunksTotal.toNat ∧
    (0x28 ≤ off → readReg s off = 0)

/-- R87, R88 (U7, U8): an access outside the block, and one inside it that is not a naturally aligned 32-bit access,
is refused under its own name. Refusing them, and the two names, are the model's choice (log entry 11). -/
def Obligations.UndefinedAccessesRefused : Prop :=
  ∀ (s : State) (addr width : Nat) (v : Word),
    ((addr < s.params.regBase ∨ s.params.regBase + 0x3F < addr) →
      hostAccess (.read addr width) s = .refused .outsideBlock ∧
      hostAccess (.write addr width v) s = .refused .outsideBlock) ∧
    (s.params.regBase ≤ addr → addr ≤ s.params.regBase + 0x3F →
      (width ≠ 32 ∨ (addr - s.params.regBase) % 4 ≠ 0) →
      hostAccess (.read addr width) s = .refused .undefinedAccess ∧
      hostAccess (.write addr width v) s = .refused .undefinedAccess)

/-- R31, R35, R42, R44 to R48: a store to STATUS, to any offset from DIRTY0 to CHUNKCFG and to a reserved offset is
ignored. -/
def Obligations.ReadOnlyOffsetsIgnoreStores : Prop :=
  ∀ (s : State) (off : Nat) (v : Word), off < 0x40 → off % 4 = 0 → off ≠ 0x00 → off ≠ 0x08 → off ≠ 0x0C →
    hostAccess (.write (s.params.regBase + off) 32 v) s = .next s

/-- R40: a store to INT clears exactly the flags written as 1 and changes nothing else. -/
def Obligations.InterruptFlagsClearByWritingOne : Prop :=
  ∀ (s : State) (v : Word),
    hostAccess (.write (s.params.regBase + 0x0C) 32 v) s =
      .next { s with intDone := if v.getLsbD 0 then false else s.intDone,
                     intErr := if v.getLsbD 1 then false else s.intErr }

/-- R322, R330, R331 as the host sees them: after a completion STATUS reads the code by its number of R320, the opcode
byte, BUSY 0 and CMD_READY 1; INT.DONE reads 1, INT.ERR is kept or set, and irq is DONE_IE. -/
def Obligations.CompletionVisibleInRegisters : Prop :=
  ∀ (c : Code) (s : State), let t := complete c s
    ((readReg t 0x04).extractLsb' 8 4).toNat = (match c with
      | .ok => 0 | .outOfBounds => 1 | .transportError => 2 | .initError => 3 | .closedError => 4 | .flushError => 5
      | .invalidState => 6 | .illegalCommand => 7) ∧
    (readReg t 0x04).extractLsb' 12 8 = s.asm.hdr.extractLsb' 24 8 ∧
    (readReg t 0x04).getLsbD 4 = false ∧ (readReg t 0x04).getLsbD 5 = true ∧
    (readReg t 0x04).extractLsb' 0 4 = (readReg s 0x04).extractLsb' 0 4 ∧
    (readReg t 0x0C).getLsbD 0 = true ∧ (readReg t 0x0C).getLsbD 1 = (s.intErr || c != .ok) ∧ irq t = s.doneIe ∧
    t.sp = .idle

/-- R40, R328: when a command completes in the step in which the host also clears INT, INT.DONE reads 1, and INT.ERR reads
1 if the completion's code is not OK. -/
def Obligations.CompletionBeatsInterruptClear : Prop :=
  ∀ (s t : State) (v : Word) (m : Move), m ≠ .blockReset →
    takeTurn ⟨some (.write (s.params.regBase + 0x0C) 32 v), m⟩ s = .next t →
    s.busy = true → t.busy = false → t.intDone = true ∧ (t.result ≠ .ok → t.intErr = true)

/-- R36: RESULT and LAST_OP keep their values until the next completion: a step that changes either leaves INT.DONE at
1, or is a block reset. -/
def Obligations.ResultChangesOnlyAtCompletion : Prop :=
  ∀ s t : State, step s = .next t → (∀ u rest, s.turns = u :: rest → u.move ≠ .blockReset) →
    (t.result ≠ s.result ∨ t.lastOp ≠ s.lastOp) → t.intDone = true

/-! ## The command port and the assembler -/

/-- R20, R32, R39, R96, R367: a CMD store is accepted at once when CMD_READY = 1, and otherwise held, and nothing else
changes. While a word is held the HOST makes no access but a store to CTRL: no load and no other store takes effect
before the held word is accepted. An idle, ready core accepts it. That an access the schedule names in this hold is
not made, and the turn's move is, is the model's choice (log entry 8). -/
def Obligations.CommandWordAcceptedOrHeld : Prop :=
  ∀ (s : State) (w : Word),
    (s.busy = false → hostAccess (.write s.params.regBase 32 w) s = accept w s) ∧
    (s.busy = true → hostAccess (.write s.params.regBase 32 w) s = .next { s with held := some w }) ∧
    (s.held = none → ∀ a, hostStep a s = hostAccess a s) ∧
    (s.held = some w →
      (∀ a, (∀ v, a ≠ .write (s.params.regBase + 0x08) 32 v) → hostStep a s = .next s ∧
        ∀ m, takeTurn ⟨some a, m⟩ s = move m s) ∧
      (∀ v, hostStep (.write (s.params.regBase + 0x08) 32 v) s =
        hostAccess (.write (s.params.regBase + 0x08) 32 v) s) ∧
      (s.turns = [] → s.sp = .idle → s.busy = false → step s = accept w { s with held := none }))

/-- R125, R126, R130: accepting the words of a command from phase NONE starts it, with BUSY 1, SP at its first step and
words that decode to it; a DRAW_IMAGE with pixels instead waits for its data words, with the verdict of its check. And
for every header word, legal or not, in every STATE: opcode 0x02 waits for one word and then starts; 0x03 waits for
two, takes its verdict, which is ILLEGAL_COMMAND (CLOSED_ERROR in CLOSED) if a must-be-zero bit is set, and then waits
for its data words, or starts if it has none; every other opcode, the reserved ones too, starts at once. -/
def Obligations.AcceptedWordsStartTheCommand : Prop :=
  (∀ (i : Instr) (s : State), s.asm.phase = .none → ∃ t, acceptWords (encode i) s = .next t ∧
    (∃ rest, decode (asmWords t) = .ok (i, rest)) ∧
    (match i with
     | .drawImage _ _ w h =>
       t.asm.verdict = check i s ∧ t.asm.k = 0 ∧ t.asm.left = dataWords w h ∧
       (if w.toNat * h.toNat = 0 then
          t = { s with asm := t.asm, busy := true, sp := .run i.opcode .begin 0 } ∧ t.asm.phase = .none
        else t = { s with asm := t.asm } ∧ t.asm.phase = .data)
     | _ => t = { s with asm := t.asm, busy := true, sp := .run i.opcode .begin 0 } ∧ t.asm.phase = .none)) ∧
  (∀ (hdr xy wh : Word) (s : State), s.asm.phase = .none →
    let op := hdr.toNat / 2 ^ 24
    let pixels := (wh.toNat % 2 ^ 16) * (wh.toNat / 2 ^ 16)
    let starts := fun t : State => t.asm.hdr = hdr ∧ t.asm.phase = .none ∧
      t = { s with asm := t.asm, busy := true, sp := .run (BitVec.ofNat 8 op) .begin 0 }
    let waits := fun t : State => t.asm.hdr = hdr ∧ t = { s with asm := t.asm }
    (op ≠ 2 → op ≠ 3 → ∃ t, acceptWords [hdr] s = .next t ∧ starts t) ∧
    (op = 2 →
      (∃ t, acceptWords [hdr] s = .next t ∧ waits t ∧ t.asm.phase = .oper ∧ t.asm.left = 1) ∧
      ∃ t, acceptWords [hdr, xy] s = .next t ∧ starts t ∧ t.asm.opnd = [xy]) ∧
    (op = 3 →
      (∃ t, acceptWords [hdr] s = .next t ∧ waits t ∧ t.asm.phase = .oper ∧ t.asm.left = 2) ∧
      (∃ t, acceptWords [hdr, xy] s = .next t ∧ waits t ∧ t.asm.phase = .oper ∧ t.asm.left = 1) ∧
      ∃ t, acceptWords [hdr, xy, wh] s = .next t ∧ t.asm.opnd = [xy, wh] ∧ t.asm.k = 0 ∧
        t.asm.left = (pixels + 1) / 2 ∧
        (hdr &&& 0x00FFFFFF ≠ 0 →
          t.asm.verdict = if s.state = .closed then .closedError else .illegalCommand) ∧
        (if pixels = 0 then starts t else waits t ∧ t.asm.phase = .data)))

/-- R247, R250, R252: the data words of an accepted image write pixel i to column X + i mod W, row Y + i div W, for
every pixel of the image and no other, change nothing else, and start the command. -/
def Obligations.DrawImageDataWritesPixels : Prop :=
  ∀ (s : State) (ws : List Word), s.asm.phase = .data → s.asm.verdict = .ok → imageFits s = true → s.asm.k = 0 →
    0 < imageW s * imageH s → s.asm.left = ceilDiv (imageW s * imageH s) 2 → ws.length = s.asm.left →
    ∃ t, acceptWords ws s = .next t ∧
      t = { s with pb := t.pb, asm := t.asm, busy := true, sp := .run (opField s.asm.hdr) .begin 0 } ∧
      asmWords t = asmWords s ∧ t.asm.phase = .none ∧ t.asm.verdict = .ok ∧
      (∀ i, i < imageW s * imageH s →
        readPixel t (((hiHalf (imageXY s)).toNat + i / imageW s) * s.params.panelW +
          ((loHalf (imageXY s)).toNat + i % imageW s)) = wordPixel ws i) ∧
      (∀ a, (∀ i, i < imageW s * imageH s → a ≠ imagePixelIndex s i) → readPixel t a = readPixel s a)

/-- R130, R250: the data words of a rejected image are all consumed, write nothing, and start the command. -/
def Obligations.RejectedImageIsConsumed : Prop :=
  ∀ (s : State) (ws : List Word), s.asm.phase = .data → s.asm.verdict ≠ .ok → 0 < s.asm.left →
    ws.length = s.asm.left →
    ∃ t, acceptWords ws s = .next t ∧
      t = { s with asm := t.asm, busy := true, sp := .run (opField s.asm.hdr) .begin 0 } ∧
      asmWords t = asmWords s ∧ t.asm.phase = .none ∧ t.asm.verdict = s.asm.verdict

/-! ## Checks and rejection -/

/-- R249, R254, R325, R327: the order in which a command's tests give its code, on the command's own words, in the states
check can see. That an image without pixels is checked by its origin alone, as R254 says, where R325 has the sums
too, is the model's choice between the two (log entry 32). -/
def Obligations.CheckFollowsPriority : Prop :=
  ∀ (i : Instr) (s : State) (rest ws : List Word),
    (s.state = .closed → verdictOf ws s = .closedError) ∧
    (s.state ≠ .closed → ∀ e, decode ws = .error e → verdictOf ws s = .illegalCommand) ∧
    (s.state = .uninit → verdictOf (encode i ++ rest) s =
      match i with
      | .init _ _ _ _ => .ok
      | .close => .ok
      | _ => .initError) ∧
    (s.state = .ready ∨ s.state = .sleeping → verdictOf (encode i ++ rest) s =
      match i with
      | .init _ _ _ _ => .invalidState
      | .writePixel _ x y => if x.toNat < s.params.panelW ∧ y.toNat < s.params.panelH then .ok else .outOfBounds
      | .drawImage x y w h =>
        if x.toNat < s.params.panelW ∧ y.toNat < s.params.panelH ∧ (w.toNat = 0 ∨ h.toNat = 0 ∨
            x.toNat + w.toNat ≤ s.params.panelW ∧ y.toNat + h.toNat ≤ s.params.panelH) then .ok else .outOfBounds
      | .clear _ => .ok
      | .flush => if s.state = .ready then .ok else .invalidState
      | .sleep => if s.state = .ready then .ok else .invalidState
      | .wake => if s.state = .sleeping then .ok else .invalidState
      | .close => .ok)

/-- R246, R321, R326: a command its check rejects, or a DRAW_IMAGE whose verdict is not OK, completes with that code
in its first step and does nothing else; so does a command with an illegal header, an image's with the verdict of its
WH word. -/
def Obligations.RejectedCommandOnlyCompletes : Prop :=
  ∀ (s : State) (op : Byte) (n : Nat), s.sp = .run op .begin n →
    (∀ i : Instr, (∀ x y w h, i ≠ .drawImage x y w h) → check i s ≠ .ok →
      exec i s = .next (complete (check i s) s)) ∧
    (∀ x y w h, s.asm.verdict ≠ .ok → exec (.drawImage x y w h) s = .next (complete s.asm.verdict s)) ∧
    (∀ e, decode (asmWords s) = .error (.reservedOpcode e) ∨ decode (asmWords s) = .error (.reservedBits e) →
      (opField s.asm.hdr ≠ 3 →
        runCommand s = .next (complete (if s.state = .closed then .closedError else .illegalCommand) s)) ∧
      (opField s.asm.hdr = 3 → runCommand s = .next (complete s.asm.verdict s)))

/-! ## Framebuffer commands -/

/-- R241, R243, R245: an accepted WRITE_PIXEL stores its colour at Y*PANEL_W + X, extends DW to the pixel and
completes OK. -/
def Obligations.WritePixelCompletes : Prop :=
  ∀ (color x y : Half) (s : State) (op : Byte) (n : Nat), s.sp = .run op .begin n →
    (s.state = .ready ∨ s.state = .sleeping) → x.toNat < s.params.panelW → y.toNat < s.params.panelH →
    ∃ t, exec (.writePixel color x y) s = .next t ∧ t.result = .ok ∧ t.busy = false ∧ t.sp = .idle ∧
      t.lastOp = opField s.asm.hdr ∧ t.intDone = true ∧ t.intErr = s.intErr ∧ t.dw = s.dw.extend x y x y ∧
      readPixel t (y.toNat * s.params.panelW + x.toNat) = color

/-- R248, R251, R254: an accepted DRAW_IMAGE extends DW to its rectangle if it has pixels and completes OK. -/
def Obligations.DrawImageCompletes : Prop :=
  ∀ (x y w h : Half) (s : State) (op : Byte) (n : Nat), s.sp = .run op .begin n → s.asm.verdict = .ok →
    ∃ t, exec (.drawImage x y w h) s = .next t ∧ t.result = .ok ∧ t.busy = false ∧ t.sp = .idle ∧
      t.lastOp = opField s.asm.hdr ∧ t.intDone = true ∧ t.intErr = s.intErr ∧
      (0 < w.toNat * h.toNat → t.dw = s.dw.extend x y (BitVec.ofNat 16 (x.toNat + w.toNat - 1))
        (BitVec.ofNat 16 (y.toNat + h.toNat - 1))) ∧
      (w.toNat * h.toNat = 0 → t.dw = s.dw)

/-- R256, R257, R258: an accepted CLEAR makes every pixel its colour, marks the whole panel dirty whatever DW was, and
completes OK. -/
def Obligations.ClearCompletes : Prop :=
  ∀ (color : Half) (s : State) (op : Byte) (n : Nat), s.sp = .run op .begin n →
    (s.state = .ready ∨ s.state = .sleeping) → s.params.wellFormed = true →
    ∃ t, exec (.clear color) s = .next t ∧ t.result = .ok ∧ t.busy = false ∧ t.sp = .idle ∧
      t.lastOp = opField s.asm.hdr ∧ t.intDone = true ∧ t.intErr = s.intErr ∧
      (∀ i, i < s.params.panelW * s.params.panelH → readPixel t i = color) ∧
      t.dw.valid = true ∧ t.dw.x0.toNat = 0 ∧ t.dw.y0.toNat = 0 ∧ t.dw.x1.toNat + 1 = s.params.panelW ∧
      t.dw.y1.toNat + 1 = s.params.panelH

/-- The frame of WRITE_PIXEL, DRAW_IMAGE and CLEAR (R242, R253, R256): nothing but PB, DW and the completion fields
changes; WRITE_PIXEL changes no pixel but its own, and none when it is rejected; DRAW_IMAGE's execute step changes no
pixel; CLEAR writes nothing outside PB. -/
def Obligations.FramebufferCommandFrame : Prop :=
  ∀ s t : State,
    (∀ i : Instr, (∃ c x y, i = .writePixel c x y) ∨ (∃ x y w h, i = .drawImage x y w h) ∨ (∃ c, i = .clear c) →
      exec i s = .next t →
      t = { s with pb := t.pb, dw := t.dw, result := t.result, lastOp := t.lastOp, intDone := t.intDone,
                   intErr := t.intErr, busy := t.busy, sp := t.sp } ∧
      (t.result ≠ .ok → t.pb = s.pb ∧ t.dw = s.dw)) ∧
    (∀ c x y, exec (.writePixel c x y) s = .next t →
      ∀ a, a ≠ pixelIndex s.params x.toNat y.toNat → readPixel t a = readPixel s a) ∧
    (∀ x y w h, exec (.drawImage x y w h) s = .next t → ∀ a, readPixel t a = readPixel s a) ∧
    (∀ c, exec (.clear c) s = .next t → (∀ cell ∈ s.pb, cell.1 < pbSize s.params) →
      ∀ a, s.params.panelW * s.params.panelH ≤ a → readPixel t a = readPixel s a)

/-- R240: extend gives the bounding box: it covers the old window and the new rectangle, and lies in every rectangle
that covers both. -/
def Obligations.ExtendIsTheBoundingBox : Prop :=
  ∀ (dw : Window) (ax ay bx by' : Half), let e := dw.extend ax ay bx by'
    e.valid = true ∧
    (∀ x y : Nat, (ax.toNat ≤ x ∧ x ≤ bx.toNat ∧ ay.toNat ≤ y ∧ y ≤ by'.toNat ∨
        dw.valid = true ∧ dw.x0.toNat ≤ x ∧ x ≤ dw.x1.toNat ∧ dw.y0.toNat ≤ y ∧ y ≤ dw.y1.toNat) →
      e.x0.toNat ≤ x ∧ x ≤ e.x1.toNat ∧ e.y0.toNat ≤ y ∧ y ≤ e.y1.toNat) ∧
    (∀ l r u d : Nat, l ≤ ax.toNat ∧ bx.toNat ≤ r ∧ u ≤ ay.toNat ∧ by'.toNat ≤ d →
      (dw.valid = true → l ≤ dw.x0.toNat ∧ dw.x1.toNat ≤ r ∧ u ≤ dw.y0.toNat ∧ dw.y1.toNat ≤ d) →
      l ≤ e.x0.toNat ∧ e.x1.toNat ≤ r ∧ u ≤ e.y0.toNat ∧ e.y1.toNat ≤ d)

/-! ## Driver commands, step by step -/

/-- INIT, micro-operation by micro-operation (R169, R204, R272 to R274): what each of its steps does when the core
runs it, its requests, its answered holds and its two ends. Which assignments share a step is the model's choice (log
entry 1). -/
def Obligations.InitStepByStep : Prop :=
  ∀ (ms : Half) (o : BitVec 2) (b v : Bool) (s : State) (op : Byte) (n : Nat), s.xfer.pending = false →
    let i := Instr.init ms o b v
    (s.sp = .run op .begin n → s.state = .uninit →
      exec i s = .next { s with cfg := ⟨o, b, v⟩, state := .resetting, sp := .run op .resetLow 0 }) ∧
    (s.sp = .run op .resetLow n → s.rstN = true →
      exec i s = .next { s with rstN := false, trace := s.trace ++ [.rst false],
                                sp := .run op (if ms = 0 then .resetHigh else .resetHold) 0 }) ∧
    (s.sp = .run op .resetHold n → ms ≠ 0 →
      (s.reply = none → exec i s = .next { s with delay := some ms, trace := s.trace ++ [.wait ms] }) ∧
      (s.reply = some .ok → exec i s = .next { s with reply := none, sp := .run op .resetHigh 0 })) ∧
    (s.sp = .run op .resetHigh n → s.rstN = false →
      exec i s = .next { s with rstN := true, trace := s.trace ++ [.rst true],
                                state := if s.params.tResetRecovery = 0 then .initializing else s.state,
                                sp := .run op (if s.params.tResetRecovery = 0 then .acquire else .recovery) 0 }) ∧
    (s.sp = .run op .recovery n → s.params.tResetRecovery ≠ 0 →
      (s.reply = none → exec i s = .next { s with delay := some s.params.tResetRecovery,
                                                  trace := s.trace ++ [.wait s.params.tResetRecovery] }) ∧
      (s.reply = some .ok →
        exec i s = .next { s with reply := none, state := .initializing, sp := .run op .acquire 0 })) ∧
    (s.sp = .run op .deselect n → s.csN = false →
      exec i s = .next { s with csN := true, trace := s.trace ++ [.cs true], sp := .run op .release 0 }) ∧
    (s.sp = .run op .postDelay n → s.params.tPostInit ≠ 0 →
      (s.reply = none → exec i s = .next { s with delay := some s.params.tPostInit,
                                                  trace := s.trace ++ [.wait s.params.tPostInit] }) ∧
      (s.reply = some .ok →
        exec i s = .next (complete .ok { s with reply := none, state := .ready }))) ∧
    (s.sp = .run op .abortDeselect n → s.csN = false →
      exec i s = .next { s with csN := true, trace := s.trace ++ [.cs true], sp := .run op .abortRelease 0 }) ∧
    (s.sp = .run op .abortRelease n → s.locked = true → s.params.sharedBus = false →
      exec i s = .next (complete .initError { s with locked := false, state := .uninit })) ∧
    (s.sp = .run op .abortRelease n → s.locked = true → s.params.sharedBus = true → s.lockReq = true →
      exec i s = .next (complete .initError { s with locked := false, lockReq := false, state := .uninit,
                                                     trace := s.trace ++ [.unlock] }))

/-- R201, R203: literal bytes of the init table stand as they are; INV_FROM_CFG is INVON or INVOFF by CFG.INV;
MADCTL_FROM_CFG is base[ORIENT] + 8 * BGR. -/
def Obligations.PlaceholdersResolveFromConfiguration : Prop :=
  ∀ s : State,
    (∀ b, resolveCmd s (.lit b) = b) ∧ (∀ b, resolveParam s (.lit b) = b) ∧
    (resolveCmd s .invFromCfg = if s.cfg.inv then s.params.bytes.invon else s.params.bytes.invoff) ∧
    resolveParam s .madctlFromCfg = madctl s.cfg.orient s.cfg.bgr ∧
    ∀ (o : BitVec 2) (b : Bool), (madctl o b).toNat = [0x00, 0x60, 0xC0, 0xA0].getD o.toNat 0 + 8 * b.toNat

/-- INIT's frame, step by step (R176, R179, R180, R201 to R204, R276): the lock, chip-select, and for entry `n` of the
init table its resolved command byte, its resolved parameters and its delay inside the frame, then entry n+1 or the
end of the frame. Which assignments share a step is the model's choice (log entry 1). -/
def Obligations.InitTableStepByStep : Prop :=
  ∀ (ms : Half) (o : BitVec 2) (b v : Bool) (s : State) (op : Byte) (n : Nat), s.xfer.pending = false →
    let i := Instr.init ms o b v
    let entry := fun k => if k < s.params.initTable.length then SeqPtr.run op (.group .initEntry .cmdMode) k
      else SeqPtr.run op .deselect 0
    (s.sp = .run op .acquire n → s.params.sharedBus = false → s.reply = none →
      exec i s = .next { s with locked := true, sp := .run op .select 0 }) ∧
    (s.sp = .run op .acquire n → s.params.sharedBus = true →
      (s.reply = none → exec i s = .next { s with lockReq := true }) ∧
      (s.reply = some .ok → exec i s = .next { s with reply := none, locked := true, trace := s.trace ++ [.lock],
                                                      sp := .run op .select 0 })) ∧
    (s.sp = .run op .select n → s.csN = true →
      exec i s = .next { s with csN := false, trace := s.trace ++ [.cs false], sp := entry 0 }) ∧
    (∀ e, s.params.initTable[n]? = some e →
      let settled := if e.delayMs = 0 then entry (n + 1) else .run op (.group .initEntry .settle) n
      (s.sp = .run op (.group .initEntry .cmdMode) n →
        exec i s = .next { s with dc := false, sp := .run op (.group .initEntry .cmdByte) n }) ∧
      (s.sp = .run op (.group .initEntry .cmdByte) n → 1 ≤ s.params.tbufBytes →
        (s.reply = none → ∃ t, exec i s = .next t ∧ t = { s with tb := t.tb, xfer := t.xfer } ∧
          t.xfer.pending = true ∧ sentBytes t = [resolveCmd s e.cmd]) ∧
        (s.reply = some .ok → exec i s = .next { s with reply := none, sp := if e.params = [] then settled
                                                          else .run op (.group .initEntry .dataMode) n }) ∧
        (s.reply = some .err → exec i s = .next { s with reply := none, sp := .run op .abortDeselect 0 })) ∧
      (s.sp = .run op (.group .initEntry .dataMode) n →
        exec i s = .next { s with dc := true, sp := .run op (.group .initEntry .params) n }) ∧
      (s.sp = .run op (.group .initEntry .params) n → 1 ≤ e.params.length → e.params.length ≤ s.params.tbufBytes →
        (s.reply = none → ∃ t, exec i s = .next t ∧ t = { s with tb := t.tb, xfer := t.xfer } ∧
          t.xfer.pending = true ∧ sentBytes t = e.params.map (resolveParam s)) ∧
        (s.reply = some .ok → exec i s = .next { s with reply := none, sp := settled }) ∧
        (s.reply = some .err → exec i s = .next { s with reply := none, sp := .run op .abortDeselect 0 })) ∧
      (s.sp = .run op (.group .initEntry .settle) n → e.delayMs ≠ 0 →
        (s.reply = none → exec i s = .next { s with delay := some e.delayMs, trace := s.trace ++ [.wait e.delayMs] }) ∧
        (s.reply = some .ok → exec i s = .next { s with reply := none, sp := entry (n + 1) }))) ∧
    (s.sp = .run op .release n → s.locked = true → s.params.sharedBus = false →
      exec i s = .next (if s.params.tPostInit = 0 then complete .ok { s with locked := false, state := .ready }
        else { s with locked := false, sp := .run op .postDelay 0 })) ∧
    (s.sp = .run op .release n → s.locked = true → s.params.sharedBus = true → s.lockReq = true →
      let u : State := { s with locked := false, lockReq := false, trace := s.trace ++ [.unlock] }
      exec i s = .next (if s.params.tPostInit = 0 then complete .ok { u with state := .ready }
        else { u with sp := .run op .postDelay 0 }))

/-- FLUSH, step by step (R206, R213, R279 to R283): its first step, WritePixels, each chunk's request and answer, and
its two ends. Which assignments share a step, and reading the window from DW, are the model's choice (log entries 1
and 23). -/
def Obligations.FlushStepByStep : Prop :=
  ∀ (s : State) (op : Byte) (n : Nat), s.xfer.pending = false →
    (s.sp = .run op .begin n → s.state = .ready → s.dw.valid = true →
      exec .flush s = .next { s with chunksIssued := 0, chunksTotal := 0, state := .flushing,
                                     sp := .run op .acquire 0 }) ∧
    (s.sp = .run op .begin n → s.state = .ready → s.dw.valid = false →
      exec .flush s = .next (complete .ok { s with chunksIssued := 0, chunksTotal := 0 })) ∧
    (s.sp = .run op (.group .ramwr .cmdByte) n → s.reply = some .ok →
      exec .flush s = .next { s with reply := none, sp := .run op .pixelMode 0 }) ∧
    (s.sp = .run op .pixelMode n → s.dw.inPanel s.params = true → s.params.wellFormed = true →
      exec .flush s = .next { s with dc := true, sp := .run op .chunk 0,
                                     chunksTotal := BitVec.ofNat 16 (min (chunkCount s) 0xFFFF) }) ∧
    (s.sp = .run op .chunk n → s.dw.inPanel s.params = true → s.params.wellFormed = true → n < chunkCount s →
      (s.reply = none → ∃ t, exec .flush s = .next t ∧
        t = { s with chunksIssued := BitVec.ofNat 16 (min (n + 1) 0xFFFF), tb := t.tb, xfer := t.xfer } ∧
        t.xfer.pending = true ∧ sentBytes t = chunkBytes s n) ∧
      (s.reply = some .ok → exec .flush s =
        .next { s with reply := none, sp := .run op (if n + 1 < chunkCount s then .chunk else .deselect)
                                                      (if n + 1 < chunkCount s then n + 1 else 0) }) ∧
      (s.reply = some .err → exec .flush s = .next { s with reply := none, sp := .run op .abortDeselect 0 })) ∧
    (s.sp = .run op .release n → s.locked = true → s.params.sharedBus = false →
      exec .flush s = .next (complete .ok { s with locked := false, dw := Window.empty, state := .ready })) ∧
    (s.sp = .run op .release n → s.locked = true → s.params.sharedBus = true → s.lockReq = true →
      exec .flush s = .next (complete .ok { s with locked := false, lockReq := false, dw := Window.empty,
                                                   state := .ready, trace := s.trace ++ [.unlock] })) ∧
    (s.sp = .run op .deselect n → s.csN = false →
      exec .flush s = .next { s with csN := true, trace := s.trace ++ [.cs true], sp := .run op .release 0 }) ∧
    (s.sp = .run op .abortDeselect n → s.csN = false →
      exec .flush s = .next { s with csN := true, trace := s.trace ++ [.cs true], sp := .run op .abortRelease 0 }) ∧
    (s.sp = .run op .abortRelease n → s.locked = true → s.params.sharedBus = false →
      exec .flush s = .next (complete .flushError { s with locked := false, state := .ready })) ∧
    (s.sp = .run op .abortRelease n → s.locked = true → s.params.sharedBus = true → s.lockReq = true →
      exec .flush s = .next (complete .flushError { s with locked := false, lockReq := false, state := .ready,
                                                           trace := s.trace ++ [.unlock] }))

/-- FLUSH's frame up to its pixels, step by step (R176, R179, R180, R206): the lock, chip-select, then CASET with the
columns, RASET with the rows, and RAMWR without parameters; an ERR answer leads to AbortFrame. Which assignments share
a step, and reading the window from DW at the step, are the model's choice (log entries 1 and 23). -/
def Obligations.AddressWindowStepByStep : Prop :=
  ∀ (s : State) (op : Byte) (n : Nat), s.xfer.pending = false →
    (s.sp = .run op .acquire n → s.params.sharedBus = false → s.reply = none →
      exec .flush s = .next { s with locked := true, sp := .run op .select 0 }) ∧
    (s.sp = .run op .acquire n → s.params.sharedBus = true →
      (s.reply = none → exec .flush s = .next { s with lockReq := true }) ∧
      (s.reply = some .ok → exec .flush s = .next { s with reply := none, locked := true, trace := s.trace ++ [.lock],
                                                           sp := .run op .select 0 })) ∧
    (s.sp = .run op .select n → s.csN = true →
      exec .flush s = .next { s with csN := false, trace := s.trace ++ [.cs false],
                                     sp := .run op (.group .caset .cmdMode) 0 }) ∧
    (∀ (g : Group) (cmd : Byte) (lo hi : Half) (offset : Nat) (next : Group),
      (g = .caset ∧ cmd = s.params.bytes.caset ∧ lo = s.dw.x0 ∧ hi = s.dw.x1 ∧ offset = s.params.colOffset ∧ next = .raset ∨
        g = .raset ∧ cmd = s.params.bytes.raset ∧ lo = s.dw.y0 ∧ hi = s.dw.y1 ∧ offset = s.params.rowOffset ∧
          next = .ramwr) →
      (s.sp = .run op (.group g .cmdMode) n →
        exec .flush s = .next { s with dc := false, sp := .run op (.group g .cmdByte) 0 }) ∧
      (s.sp = .run op (.group g .cmdByte) n → 4 ≤ s.params.tbufBytes →
        (s.reply = none → ∃ t, exec .flush s = .next t ∧ t = { s with tb := t.tb, xfer := t.xfer } ∧
          t.xfer.pending = true ∧ sentBytes t = [cmd]) ∧
        (s.reply = some .ok → exec .flush s = .next { s with reply := none, sp := .run op (.group g .dataMode) 0 }) ∧
        (s.reply = some .err → exec .flush s = .next { s with reply := none, sp := .run op .abortDeselect 0 })) ∧
      (s.sp = .run op (.group g .dataMode) n →
        exec .flush s = .next { s with dc := true, sp := .run op (.group g .params) 0 }) ∧
      (s.sp = .run op (.group g .params) n → 4 ≤ s.params.tbufBytes →
        (s.reply = none → ∃ t, exec .flush s = .next t ∧ t = { s with tb := t.tb, xfer := t.xfer } ∧
          t.xfer.pending = true ∧
          sentBytes t = [BitVec.ofNat 8 ((lo.toNat + offset) % 2 ^ 16 / 2 ^ 8), BitVec.ofNat 8 (lo.toNat + offset),
                         BitVec.ofNat 8 ((hi.toNat + offset) % 2 ^ 16 / 2 ^ 8), BitVec.ofNat 8 (hi.toNat + offset)]) ∧
        (s.reply = some .ok → exec .flush s = .next { s with reply := none, sp := .run op (.group next .cmdMode) 0 }) ∧
        (s.reply = some .err → exec .flush s = .next { s with reply := none, sp := .run op .abortDeselect 0 }))) ∧
    (s.sp = .run op (.group .ramwr .cmdMode) n →
      exec .flush s = .next { s with dc := false, sp := .run op (.group .ramwr .cmdByte) 0 }) ∧
    (s.sp = .run op (.group .ramwr .cmdByte) n → 4 ≤ s.params.tbufBytes →
      (s.reply = none → ∃ t, exec .flush s = .next t ∧ t = { s with tb := t.tb, xfer := t.xfer } ∧
        t.xfer.pending = true ∧ sentBytes t = [s.params.bytes.ramwr]) ∧
      (s.reply = some .ok → exec .flush s = .next { s with reply := none, sp := .run op .pixelMode 0 }) ∧
      (s.reply = some .err → exec .flush s = .next { s with reply := none, sp := .run op .abortDeselect 0 }))

/-- SLEEP and WAKE, step by step (R216, R217, R289, R290, R294, R295): the frame opens, one command byte is requested,
and STATE changes only after the post-command delay; on ERR it does not change. Which assignments share a step is the
model's choice (log entry 1). -/
def Obligations.SleepWakeStepByStep : Prop :=
  ∀ (s : State) (op : Byte) (n : Nat), s.xfer.pending = false →
    ∀ (i : Instr) (g : Group) (cmd : Byte) (ms : Half) (before after : DriverState),
    (i = .sleep ∧ g = .slpin ∧ cmd = s.params.bytes.slpin ∧ ms = s.params.tSleepIn ∧ before = .ready ∧
        after = .sleeping ∨
      i = .wake ∧ g = .slpout ∧ cmd = s.params.bytes.slpout ∧ ms = s.params.tSleepOut ∧ before = .sleeping ∧
        after = .ready) →
    (s.sp = .run op .begin n → s.state = before → exec i s = .next { s with sp := .run op .acquire 0 }) ∧
    (s.sp = .run op .acquire n → s.params.sharedBus = false → s.reply = none →
      exec i s = .next { s with locked := true, sp := .run op .select 0 }) ∧
    (s.sp = .run op .acquire n → s.params.sharedBus = true →
      (s.reply = none → exec i s = .next { s with lockReq := true }) ∧
      (s.reply = some .ok → exec i s = .next { s with reply := none, locked := true, trace := s.trace ++ [.lock],
                                                      sp := .run op .select 0 })) ∧
    (s.sp = .run op .select n → s.csN = true →
      exec i s = .next { s with csN := false, trace := s.trace ++ [.cs false],
                                sp := .run op (.group g .cmdMode) 0 }) ∧
    (s.sp = .run op (.group g .cmdMode) n →
      exec i s = .next { s with dc := false, sp := .run op (.group g .cmdByte) 0 }) ∧
    (s.sp = .run op (.group g .cmdByte) n → 1 ≤ s.params.tbufBytes →
      (s.reply = none → ∃ t, exec i s = .next t ∧ t = { s with tb := t.tb, xfer := t.xfer } ∧
        t.xfer.pending = true ∧ sentBytes t = [cmd]) ∧
      (s.reply = some .ok → exec i s = .next { s with reply := none, sp := .run op .deselect 0 }) ∧
      (s.reply = some .err → exec i s = .next { s with reply := none, sp := .run op .abortDeselect 0 })) ∧
    (s.sp = .run op .deselect n → s.csN = false →
      exec i s = .next { s with csN := true, trace := s.trace ++ [.cs true], sp := .run op .release 0 }) ∧
    (s.sp = .run op .release n → s.locked = true → s.params.sharedBus = false →
      exec i s = .next (if ms = 0 then complete .ok { s with locked := false, state := after }
        else { s with locked := false, sp := .run op .postDelay 0 })) ∧
    (s.sp = .run op .release n → s.locked = true → s.params.sharedBus = true → s.lockReq = true →
      let u : State := { s with locked := false, lockReq := false, trace := s.trace ++ [.unlock] }
      exec i s = .next (if ms = 0 then complete .ok { u with state := after }
        else { u with sp := .run op .postDelay 0 })) ∧
    (s.sp = .run op .abortDeselect n → s.csN = false →
      exec i s = .next { s with csN := true, trace := s.trace ++ [.cs true], sp := .run op .abortRelease 0 }) ∧
    (s.sp = .run op .postDelay n → ms ≠ 0 →
      (s.reply = none → exec i s = .next { s with delay := some ms, trace := s.trace ++ [.wait ms] }) ∧
      (s.reply = some .ok → exec i s = .next (complete .ok { s with reply := none, state := after }))) ∧
    (s.sp = .run op .abortRelease n → s.locked = true → s.params.sharedBus = false →
      exec i s = .next (complete .transportError { s with locked := false })) ∧
    (s.sp = .run op .abortRelease n → s.locked = true → s.params.sharedBus = true → s.lockReq = true →
      exec i s = .next (complete .transportError { s with locked := false, lockReq := false,
                                                          trace := s.trace ++ [.unlock] }))

/-- CLOSE, step by step (R299, R300): from an idle block's levels it adds no event and ends in CLOSED with OK. Which
assignments share a step is the model's choice (log entry 1). -/
def Obligations.CloseStepByStep : Prop :=
  ∀ (s : State) (op : Byte) (n : Nat), s.xfer.pending = false → s.csN = true → s.locked = false → s.rstN = true →
    s.lockReq = false →
    (s.sp = .run op .begin n → s.state ≠ .closed →
      exec .close s = .next { s with sp := .run op .closeDeselect 0 }) ∧
    (s.sp = .run op .closeDeselect n → exec .close s = .next { s with sp := .run op .closeRelease 0 }) ∧
    (s.sp = .run op .closeRelease n → exec .close s = .next { s with sp := .run op .closeResetHigh 0 }) ∧
    (s.sp = .run op .closeResetHigh n → exec .close s = .next (complete .ok { s with state := .closed }))

/-- The frame of INIT, SLEEP, WAKE and CLOSE (R272, R289, R294, R299): no step of theirs changes PB, DW, CHUNKS, the
parameters, the enables, the schedule or a held word; CFG changes only in INIT's first step; TB changes only below the
length of the bytes the step stages; events are only added to the trace. -/
def Obligations.DriverCommandFrame : Prop :=
  ∀ (i : Instr) (s t : State), (∃ ms o b v, i = .init ms o b v) ∨ i = .sleep ∨ i = .wake ∨ i = .close →
    exec i s = .next t →
    t = { s with state := t.state, busy := t.busy, result := t.result, lastOp := t.lastOp, locked := t.locked,
                 intDone := t.intDone, intErr := t.intErr, cfg := t.cfg, csN := t.csN, dc := t.dc, rstN := t.rstN,
                 sp := t.sp, xfer := t.xfer, delay := t.delay, lockReq := t.lockReq, reply := t.reply, tb := t.tb,
                 trace := t.trace } ∧
    ((∀ n, ¬ AtStep s .begin n) → t.cfg = s.cfg) ∧
    ((∀ ms o b v, i ≠ .init ms o b v) → t.cfg = s.cfg ∧ (i ≠ .close → t.rstN = s.rstN)) ∧
    (i = .close → t.tb = s.tb ∧ t.xfer = s.xfer ∧ t.dc = s.dc ∧ t.delay = s.delay) ∧
    (∀ a, readPixel t a = readPixel s a) ∧
    (∀ a, (stagedBytes i s).length ≤ a → readTb t a = readTb s a) ∧
    s.trace <+: t.trace

/-- The frame of FLUSH (R104, R279, R280, R282, R283): no step of it changes PB, CFG, rst_n or the enables; DW changes
only in its last step, to empty, with OK; TB changes only below the length of the bytes the step stages. -/
def Obligations.FlushFrame : Prop :=
  ∀ s t : State, exec .flush s = .next t →
    t = { s with state := t.state, busy := t.busy, result := t.result, lastOp := t.lastOp, locked := t.locked,
                 intDone := t.intDone, intErr := t.intErr, dw := t.dw, chunksIssued := t.chunksIssued,
                 chunksTotal := t.chunksTotal, csN := t.csN, dc := t.dc, sp := t.sp, xfer := t.xfer,
                 lockReq := t.lockReq, reply := t.reply, tb := t.tb, trace := t.trace } ∧
    (t.dw ≠ s.dw → t.dw = Window.empty ∧ t.result = .ok ∧ t.sp = .idle ∧ ∃ n, AtStep s .release n) ∧
    (∀ a, readPixel t a = readPixel s a) ∧
    (∀ a, (stagedBytes .flush s).length ≤ a → readTb t a = readTb s a) ∧
    s.trace <+: t.trace

/-! ## Micro-operations -/

/-- R163 to R168: a line operation sets its line; chip-select and reset record an event exactly when the level
changes, dc none; and with a transfer outstanding none of them is performed (R161). The fault for a line operation
with a transfer outstanding is the model's (log entry 15). -/
def Obligations.LineOperationsRecordChanges : Prop :=
  ∀ s : State,
    (s.xfer.pending = false →
      lineOp selectLine s = .next { s with csN := false, trace := if s.csN then s.trace ++ [.cs false] else s.trace } ∧
      lineOp deselectLine s = .next { s with csN := true, trace := if s.csN then s.trace else s.trace ++ [.cs true] } ∧
      lineOp cmdModeLine s = .next { s with dc := false } ∧
      lineOp dataModeLine s = .next { s with dc := true } ∧
      lineOp resetLowLine s =
        .next { s with rstN := false, trace := if s.rstN then s.trace ++ [.rst false] else s.trace } ∧
      lineOp resetHighLine s =
        .next { s with rstN := true, trace := if s.rstN then s.trace else s.trace ++ [.rst true] }) ∧
    (s.xfer.pending = true → ∀ line, lineOp line s = .fault .lineDuringTransfer)

/-- R84, R85, R170, R172: a request stages exactly its bytes, which are what TRANSPORT sends, and its answer records
them with the mode of dc; a second request while one is outstanding, and an empty or over-long one, is not made. The
faults for a second, an empty or an over-long request are the model's (log entry 15). -/
def Obligations.RequestSendsItsStagedBytes : Prop :=
  ∀ (bytes : List Byte) (s : State),
    (s.xfer.pending = false → 0 < bytes.length → bytes.length ≤ s.params.tbufBytes →
      ∃ t, requestTransfer bytes s = .next t ∧ t = { s with tb := t.tb, xfer := ⟨true, bytes.length⟩ } ∧
        sentBytes t = bytes ∧ (∀ a, bytes.length ≤ a → readTb t a = readTb s a) ∧
        ∀ a : Answer, (recordAnswer a t).trace =
          s.trace ++ [.tx (if s.dc then .data else .command) bytes a]) ∧
    (s.xfer.pending = true → requestTransfer bytes s = .fault .secondTransfer) ∧
    (s.xfer.pending = false → (bytes.length = 0 ∨ s.params.tbufBytes < bytes.length) →
      requestTransfer bytes s = .fault .transferLength)

/-- R209, R210: the stream has N = 2*(x1-x0+1)*(y1-y0+1) bytes, even, at least 2 and at most 2*PANEL_W*PANEL_H, and
its byte n is the one R210 computes from PB. -/
def Obligations.StreamByteMatchesRowMajorStream : Prop :=
  ∀ s : State, s.dw.inPanel s.params = true →
    (pixelStream s).length = 2 * (s.dw.x1.toNat - s.dw.x0.toNat + 1) * (s.dw.y1.toNat - s.dw.y0.toNat + 1) ∧
    (pixelStream s).length % 2 = 0 ∧ 2 ≤ (pixelStream s).length ∧
    (pixelStream s).length ≤ 2 * s.params.panelW * s.params.panelH ∧
    ∀ n, n < (pixelStream s).length →
      (pixelStream s)[n]? = some
        (let ww := s.dw.x1.toNat - s.dw.x0.toNat + 1
         let p := readPixel s ((s.dw.y0.toNat + n / 2 / ww) * s.params.panelW + (s.dw.x0.toNat + n / 2 % ww))
         if n % 2 = 0 then p.extractLsb' 8 8 else p.extractLsb' 0 8)

/-- R212: the flush's chunks are T = ceil(N / M) consecutive slices of the stream, chunk k being S[k*M .. min((k+1)*M,
N)), each but the last of M bytes, the last of N - (T-1)*M, between 2 and M, and every length even. -/
def Obligations.ChunksPartitionTheStream : Prop :=
  ∀ s : State, s.dw.inPanel s.params = true → s.params.wellFormed = true →
    let m := s.params.maxChunkBytes
    let len := (pixelStream s).length
    let t := chunkCount s
    t = (len + m - 1) / m ∧
    (∀ k, k < t → chunkBytes s k = ((pixelStream s).drop (k * m)).take (min ((k + 1) * m) len - k * m)) ∧
    (List.range t).flatMap (chunkBytes s) = pixelStream s ∧
    (∀ k, k + 1 < t → (chunkBytes s k).length = m) ∧
    (chunkBytes s (t - 1)).length = len - (t - 1) * m ∧ 2 ≤ len - (t - 1) * m ∧ len - (t - 1) * m ≤ m ∧
    (∀ k, k < t → (chunkBytes s k).length % 2 = 0)

/-- R51, R206, R208, R214, R220: by the wire form of a successful FLUSH the panel receives, command by command within the
one frame, the columns after CASET, the rows after RASET, and after RAMWR exactly the window's pixel stream; by the
wire form of a successful INIT it receives each init-table command with its resolved parameters. -/
def Obligations.PanelReceivesEachCommandsData : Prop :=
  ∀ s : State,
    (s.dw.inPanel s.params = true → s.params.wellFormed = true →
      received false (flushEvents s) =
        [([s.params.bytes.caset], be16 (offsetCoord s.dw.x0 s.params.colOffset) ++
            be16 (offsetCoord s.dw.x1 s.params.colOffset)),
         ([s.params.bytes.raset], be16 (offsetCoord s.dw.y0 s.params.rowOffset) ++
            be16 (offsetCoord s.dw.y1 s.params.rowOffset)),
         ([s.params.bytes.ramwr], pixelStream s)]) ∧
    (∀ ms, received false (initEvents ms s) =
      s.params.initTable.map fun e => ([resolveCmd s e.cmd], e.params.map (resolveParam s)))

/-! ## Whole commands under a cooperating environment -/

/-- R272, R276, R277: an INIT in UNINIT whose transfers are all answered OK has exactly the wire form of its
pseudocode, for every init table and every delay, and ends in READY with CFG from its header. The
run in which each answer comes at once and the host makes no access, and the number of its steps, are the model's (log
entries 1 and 2). -/
def Obligations.InitRunsToReady : Prop :=
  ∀ (s : State) (op : Byte) (n : Nat) (ms : Half) (o : BitVec 2) (b v : Bool) (rest : List Word), Inv s →
    s.sp = .run op .begin n → decode (asmWords s) = .ok (.init ms o b v, rest) → s.state = .uninit →
    s.closePending = false →
    ∃ t, drive (commandBound s) [] s = .next t ∧ t.sp = .idle ∧ t.busy = false ∧ t.state = .ready ∧
      t.result = .ok ∧ t.lastOp = 1 ∧ t.intDone = true ∧ t.cfg = ⟨o, b, v⟩ ∧ t.pb = s.pb ∧ t.dw = s.dw ∧
      t.csN = true ∧ t.rstN = true ∧ t.locked = false ∧
      t.trace = s.trace ++ initEvents ms { s with cfg := ⟨o, b, v⟩ }

/-- R206, R213, R220, R279, R280, R283: a FLUSH of a window whose transfers are all answered OK has the wire form of
R220: CASET, RASET and RAMWR with their parameters, then the chunks in order, in one frame; and it empties DW, counts
its chunks and ends in READY with OK. The run in which each answer comes at once and the host makes no access, and the
number of its steps, are the model's (log entries 1 and 2). -/
def Obligations.FlushRunsToReady : Prop :=
  ∀ (s : State) (op : Byte) (n : Nat) (rest : List Word), Inv s → s.sp = .run op .begin n →
    decode (asmWords s) = .ok (.flush, rest) → s.state = .ready → s.closePending = false → s.dw.valid = true →
    (flushTransfers s).length = 5 + chunkCount s ∧
    ∃ t, drive (commandBound s) [] s = .next t ∧ t.sp = .idle ∧ t.busy = false ∧ t.state = .ready ∧
      t.result = .ok ∧ t.lastOp = 5 ∧ t.dw = Window.empty ∧ t.pb = s.pb ∧
      t.chunksIssued = sat16 (chunkCount s) ∧ t.chunksTotal = sat16 (chunkCount s) ∧
      t.trace = s.trace ++
        (if s.params.sharedBus then [.lock] else []) ++
        [.cs false,
         .tx .command [s.params.bytes.caset] .ok,
         .tx .data (be16 (offsetCoord s.dw.x0 s.params.colOffset) ++ be16 (offsetCoord s.dw.x1 s.params.colOffset)) .ok,
         .tx .command [s.params.bytes.raset] .ok,
         .tx .data (be16 (offsetCoord s.dw.y0 s.params.rowOffset) ++ be16 (offsetCoord s.dw.y1 s.params.rowOffset)) .ok,
         .tx .command [s.params.bytes.ramwr] .ok] ++
        ((List.range (chunkCount s)).map fun k => .tx .data (chunkBytes s k) .ok) ++
        [.cs true] ++ (if s.params.sharedBus then [.unlock] else [])

/-- R215, R282, R285: when transfer k of a FLUSH is answered ERR, no later transfer is requested, the frame is closed,
DW and PB are kept for a retry, STATE is READY and the code is FLUSH_ERROR. The
run in which each answer comes at once and the host makes no access, and the number of its steps, are the model's (log
entries 1 and 2). -/
def Obligations.FlushFailureKeepsTheWindow : Prop :=
  ∀ (s : State) (op : Byte) (n k : Nat) (rest : List Word) (more : List Answer), Inv s → s.sp = .run op .begin n →
    decode (asmWords s) = .ok (.flush, rest) → s.state = .ready → s.closePending = false → s.dw.valid = true →
    k < 5 + chunkCount s →
    ∃ t, drive (commandBound s) (List.replicate k .ok ++ .err :: more) s = .next t ∧ t.sp = .idle ∧
      t.state = .ready ∧ t.result = .flushError ∧ t.dw = s.dw ∧ t.pb = s.pb ∧ t.csN = true ∧ t.locked = false ∧
      t.chunksIssued = sat16 (k + 1 - 5) ∧
      t.trace = s.trace ++ flushFailureEvents s k

/-- R289 to R291 and R294 to R296: a SLEEP in READY and a WAKE in SLEEPING answered OK send one command byte in a
frame, wait, and end in SLEEPING or READY; answered ERR they end in the state they began in with TRANSPORT_ERROR and
take no delay. The run in which each answer comes at once and the host makes no access, and the number of its steps,
are the model's (log entries 1 and 2). -/
def Obligations.SleepAndWakeRun : Prop :=
  ∀ (s : State) (op : Byte) (n : Nat) (rest : List Word) (i : Instr) (cmd : Byte) (ms : Half)
    (before after : DriverState), Inv s → s.sp = .run op .begin n → decode (asmWords s) = .ok (i, rest) →
    s.closePending = false → s.state = before →
    (i = .sleep ∧ cmd = s.params.bytes.slpin ∧ ms = s.params.tSleepIn ∧ before = .ready ∧ after = .sleeping ∨
      i = .wake ∧ cmd = s.params.bytes.slpout ∧ ms = s.params.tSleepOut ∧ before = .sleeping ∧ after = .ready) →
    (∃ t, drive (commandBound s) [] s = .next t ∧ t.sp = .idle ∧ t.state = after ∧ t.result = .ok ∧ t.pb = s.pb ∧
      t.dw = s.dw ∧ t.trace = s.trace ++ powerEvents s.params.sharedBus cmd ms) ∧
    (∃ t, drive (commandBound s) [.err] s = .next t ∧ t.sp = .idle ∧ t.state = before ∧ t.result = .transportError ∧
      t.pb = s.pb ∧ t.dw = s.dw ∧
      t.trace = s.trace ++ frameEvents s.params.sharedBus [.tx .command [cmd] .err])

/-- R281: a FLUSH with DW empty requests no transfer, changes no line, acquires no lock, leaves STATE = READY and
completes OK. -/
def Obligations.EmptyFlushTouchesNothing : Prop :=
  ∀ (s : State) (op : Byte) (n : Nat), s.sp = .run op .begin n → s.state = .ready → s.dw.valid = false →
    ∃ t, exec .flush s = .next t ∧ t.xfer = s.xfer ∧ t.csN = s.csN ∧ t.dc = s.dc ∧ t.rstN = s.rstN ∧
      t.locked = s.locked ∧ t.lockReq = s.lockReq ∧ t.trace = s.trace ∧ t.tb = s.tb ∧ t.state = .ready ∧
      t.result = .ok ∧ t.busy = false ∧ t.sp = .idle

/-- R381: when TRANSPORT, TIMER and ARBITER answer, whatever TRANSPORT's answers are, every executing command
completes. That it does so within commandBound steps counts the model's own steps, which R379 and U15 leave open: the
bound and the schedule in which an answer comes at once are the model's (log entries 1 and 2). -/
def Obligations.EveryCommandCompletes : Prop :=
  ∀ (s : State) (answers : List Answer), Inv s → s.busy = true →
    ∃ t, drive (commandBound s) answers s = .next t ∧ t.sp = .idle ∧ t.busy = false

/-- R51 and 95_test_vectors W1 (§8 of the source): after WRITE_PIXEL with DW empty and then FLUSH, the panel receives the
pixel's column after CASET, its row after RASET, and after RAMWR exactly the pixel's two bytes, high byte first. The
FLUSH's run is the model's, as in FlushRunsToReady (log entries 1 and 2). -/
def Obligations.WriteThenFlushSendsTheColour : Prop :=
  ∀ (color x y : Half) (s t u : State) (op : Byte) (n : Nat) (rest : List Word), Inv s →
    s.sp = .run op .begin n → s.state = .ready → s.dw = Window.empty →
    exec (.writePixel color x y) s = .next t → t.result = .ok →
    Inv u → (∃ op' m, u.sp = .run op' .begin m) → decode (asmWords u) = .ok (.flush, rest) →
    u.closePending = false → u.state = .ready → u.params = t.params → u.dw = t.dw → u.pb = t.pb → u.draw = t.draw →
    ∃ e new, drive (commandBound u) [] u = .next e ∧ e.trace = u.trace ++ new ∧
      received false new =
        [([u.params.bytes.caset], be16 (offsetCoord x u.params.colOffset) ++ be16 (offsetCoord x u.params.colOffset)),
         ([u.params.bytes.raset], be16 (offsetCoord y u.params.rowOffset) ++ be16 (offsetCoord y u.params.rowOffset)),
         ([u.params.bytes.ramwr], [color.extractLsb' 8 8, color.extractLsb' 0 8])]

/-! ## Invariants -/

/-- The state right after reset meets the invariant (R54), and so does SEQ after power-on or block reset with any
well-formed parameters (R6 to R14). The parameters State.reset holds are the model's choice (log entry 3). -/
def Obligations.ResetMeetsInvariant : Prop :=
  Inv State.reset ∧ ∀ (p : Params) (draw : Nat), p.wellFormed = true → Inv (State.powerOn p draw)

/-- From every state that meets it, every step the machine takes, whatever the schedule makes of it, leads to a state
that meets it: DW inside the panel (R41), memories in form and range (R82, R84), the lines and the lock where the
sequence pointer says (R179, R382), transfers only in frames with their dc (R161, R219, R371 to R373), BUSY and SP
agreeing (R34), a well-framed trace. -/
def Obligations.StepKeepsInvariant : Prop := ∀ s t : State, Inv s → step s = .next t → Inv t

/-- From every state that meets the invariant no step faults: SEQ's own sequencing never reaches a line operation, a
request or a PB access that the spec says no command rule produces (R82, R161, R172); and a step is refused only for a
host access of its turn that the spec does not define: one outside the block (R88), or one inside it that is not 32
bits wide or not aligned (R87). The faults and refusals are the model's own names (log entries 11 and 15). -/
def Obligations.NoStepFaults : Prop :=
  ∀ s : State, Inv s → (∃ t, step s = .next t) ∨
    (∃ (u : Turn) (rest : List Turn) (a : Access) (addr width : Nat), s.turns = u :: rest ∧ u.host = some a ∧
      (a = .read addr width ∨ ∃ v, a = .write addr width v) ∧ s.held = none ∧
      (step s = .refused .outsideBlock ∧ (addr < s.params.regBase ∨ s.params.regBase + 0x3F < addr) ∨
        step s = .refused .undefinedAccess ∧ s.params.regBase ≤ addr ∧ addr ≤ s.params.regBase + 0x3F ∧
          (width ≠ 32 ∨ (addr - s.params.regBase) % 4 ≠ 0)))

/-- R304: after CLOSED is entered, no transfer is requested and no line changes until block reset; CLOSED itself, PB,
DW and CFG stay too. -/
def Obligations.ClosedIsFinal : Prop :=
  ∀ s t : State, Inv s → s.state = .closed → step s = .next t →
    (∀ u rest, s.turns = u :: rest → u.move ≠ .blockReset) →
    t.state = .closed ∧ t.xfer.pending = false ∧ t.csN = s.csN ∧ t.dc = s.dc ∧ t.rstN = s.rstN ∧
      t.locked = s.locked ∧ t.trace = s.trace ∧ t.pb = s.pb ∧ t.tb = s.tb ∧ t.dw = s.dw ∧ t.cfg = s.cfg

/-- No step changes the implementation parameters (R6 to R14, R44, R47, R102). That they are a field of the state is
the model's choice (log entry 3). -/
def Obligations.ParametersNeverChange : Prop := ∀ s t : State, step s = .next t → t.params = s.params

/-- R43: no write from the host reaches DW; DW changes only by the framebuffer commands and by a successful flush, so
by a step that completes OK with one of their opcodes, or by block reset. -/
def Obligations.OnlyItsCommandsChangeTheDirtyWindow : Prop :=
  (∀ (a : Access) (s t : State), hostAccess a s = .next t → t.dw = s.dw) ∧
  (∀ s t : State, Inv s → step s = .next t → (∀ u rest, s.turns = u :: rest → u.move ≠ .blockReset) → t.dw ≠ s.dw →
    t.result = .ok ∧ (t.lastOp = 2 ∨ t.lastOp = 3 ∨ t.lastOp = 4 ∨ t.lastOp = 5) ∧ t.intDone = true)

/-- R375: TB is not written while a transfer is outstanding; nor do dc, cs_n and the length change (R99, R371, R372). -/
def Obligations.TransferBufferStableDuringTransfer : Prop :=
  ∀ s t : State, Inv s → step s = .next t → s.xfer.pending = true →
    (∀ u rest, s.turns = u :: rest → u.move ≠ .blockReset) →
    t.tb = s.tb ∧ t.dc = s.dc ∧ t.draw = s.draw ∧
      (t.xfer.pending = true → t.xfer = s.xfer ∧ t.csN = s.csN ∧ t.rstN = s.rstN ∧ t.trace = s.trace)

/-- R376: PB is not written during a flush. -/
def Obligations.PixelsStableDuringFlush : Prop :=
  ∀ (s t : State) (rest : List Word), Inv s → step s = .next t → s.busy = true →
    decode (asmWords s) = .ok (.flush, rest) → (∀ u r, s.turns = u :: r → u.move ≠ .blockReset) → t.pb = s.pb

/-- R45, R273: no host access changes CFG; CFG changes only in the first step of an INIT that passes its check, to
that INIT's operands, or by block reset. -/
def Obligations.OnlyInitWritesConfiguration : Prop :=
  (∀ (a : Access) (s t : State), hostAccess a s = .next t → t.cfg = s.cfg) ∧
  (∀ (m : Move) (s t : State), Inv s → move m s = .next t → m ≠ .blockReset → t.cfg ≠ s.cfg →
    ∃ ms o b v rest, decode (asmWords s) = .ok (.init ms o b v, rest) ∧ t.cfg = ⟨o, b, v⟩ ∧
      (∃ n, AtStep s .begin n) ∧ s.state = .uninit ∧ t.state = .resetting)

/-- R38, R39, R302, R303, R330: what a CTRL store does. It sets or clears DONE_IE, and with bit 1 clear nothing else. With
bit 1 set: in CLOSED nothing more; idle, CLOSED without a completion; during assembly, the partial command completes
CLOSED_ERROR; during execution, CLOSE_PENDING, and in a Delay or Acquire hold abandonment at once. That such an
abandonment is one step, the store's own, is the model's choice (log entry 24); so is DONE_IE before the request (log
entry 27). -/
def Obligations.CloseRequestEffect : Prop :=
  ∀ (s : State) (v : Word),
    let out := hostAccess (.write (s.params.regBase + 0x08) 32 v) s
    let s' := { s with doneIe := v.getLsbD 0 }
    (v.getLsbD 1 = false → out = .next s') ∧
    (v.getLsbD 1 = true →
      (s.state = .closed → out = .next s') ∧
      (s.state ≠ .closed → s.busy = false → s.asm.phase = .none → out = .next { s' with state := .closed }) ∧
      (s.state ≠ .closed → s.busy = false → s.asm.phase ≠ .none →
        ∃ t, out = .next t ∧ t.state = .closed ∧ t.result = .closedError ∧ t.lastOp = opField s.asm.hdr ∧
          t.intDone = true ∧ t.intErr = true ∧ t.asm.phase = .none ∧ t.pb = s.pb ∧ t.dw = s.dw ∧ t.trace = s.trace) ∧
      (s.state ≠ .closed → s.busy = true → s.delay = none → (s.lockReq && !s.locked) = false →
        out = .next { s' with closePending := true }) ∧
      (s.state ≠ .closed → s.busy = true → (s.delay ≠ none ∨ (s.lockReq = true ∧ s.locked = false)) →
        s.xfer.pending = false →
        ∃ t, out = .next t ∧ t.state = .closed ∧ t.result = .closedError ∧ t.closePending = false ∧ t.delay = none ∧
          t.sp = .idle ∧ t.busy = false ∧ t.csN = true ∧ t.rstN = true ∧ t.locked = false ∧ t.pb = s.pb ∧ t.dw = s.dw))

/-- R303, R328: a pending close waits for an outstanding transfer; the answer, OK or ERR, is recorded, and then the
command is abandoned with CLOSED_ERROR, chip-select rises and the lock is released; with no transfer outstanding the
core abandons at its next step. That an abandonment is one step, and that it comes before a command's first step too,
are the model's choices (log entries 24 and 31). -/
def Obligations.CloseWaitsForTheTransfer : Prop :=
  ∀ (s : State), Inv s → s.closePending = true →
    (s.xfer.pending = true →
      coreStep s = .next s ∧
      ∀ a : Answer, ∃ t, transportAnswer a s = .next t ∧ t.state = .closed ∧ t.result = .closedError ∧
        t.sp = .idle ∧ t.closePending = false ∧ t.xfer.pending = false ∧ t.dw = s.dw ∧ t.pb = s.pb ∧
        t.trace = s.trace ++ [.tx (modeOf s.dc) (sentBytes s) a, .cs true] ++
          (if s.params.sharedBus then [.unlock] else [])) ∧
    (s.xfer.pending = false →
      ∃ t, coreStep s = .next t ∧ t.state = .closed ∧ t.result = .closedError ∧ t.sp = .idle ∧ t.csN = true ∧
        t.rstN = true ∧ t.locked = false ∧ t.closePending = false)

/-! ## The step -/

/-- R20, R160, R170, R174, R176, R270, R380: SP is at a step of a command and no close is pending. With no hold on, a step
of the machine in which the core moves is `exec` of the command the assembler's words decode to (with an illegal
header, its completion). In a Transfer, Delay or Acquire hold the core's move changes nothing, and the answer of
TRANSPORT, TIMER or ARBITER that is waited for is `exec` of the command on the state with that answer. The schedule and
when the core moves are the model's (log entry 2), so is the field that hands the answer over (log entry 18); that each
step decodes the words the assembler still holds is the model's reading (log entry 28). -/
def Obligations.StepRunsTheDecodedInstruction : Prop :=
  ∀ (s : State) (op : Byte) (st : SeqStep) (n : Nat), s.sp = .run op st n → s.closePending = false →
    (s.xfer.pending = false → s.delay = none → (s.lockReq && !s.locked) = false →
      (s.turns = [] → step s = runCommand s) ∧
      (∀ i rest, decode (asmWords s) = .ok (i, rest) →
        (s.turns = [] → step s = exec i s) ∧
        (∀ more, s.turns = ⟨none, .core⟩ :: more → step s = exec i { s with turns := more }))) ∧
    (s.xfer.pending = true ∨ s.delay ≠ none ∨ (s.lockReq && !s.locked) = true →
      (s.turns = [] → step s = .next s) ∧
      (∀ more, s.turns = ⟨none, .core⟩ :: more → step s = .next { s with turns := more })) ∧
    (∀ i rest more, decode (asmWords s) = .ok (i, rest) →
      (∀ a, s.xfer.pending = true → s.turns = ⟨none, .transport a⟩ :: more →
        step s = exec i (recordAnswer a { s with turns := more })) ∧
      (s.delay ≠ none → s.turns = ⟨none, .timer⟩ :: more →
        step s = exec i { s with turns := more, delay := none, reply := some .ok }) ∧
      ((s.lockReq && !s.locked) = true → s.turns = ⟨none, .grant⟩ :: more →
        step s = exec i { s with turns := more, reply := some .ok }))

/-- R54, R360 to R363: block reset, whatever was executing, gives every register its reset value, withdraws every
request and discards held words; the host's reads of it give the values of vector V-RST-1 for the parameters. What it
keeps (parameters, schedule) is the model's (log entry 25). -/
def Obligations.BlockResetRestoresEverything : Prop :=
  ∀ (s : State) (more : List Turn), s.turns = ⟨none, .blockReset⟩ :: more →
    ∃ t, step s = .next t ∧ statusReg t = 0x05000020 ∧ readReg t 0x08 = 0 ∧ readReg t 0x0C = 0 ∧ readReg t 0x10 = 0 ∧
      readReg t 0x14 = 0 ∧ readReg t 0x1C = 0 ∧ readReg t 0x20 = 0 ∧ readReg t 0x18 = readReg s 0x18 ∧
      readReg t 0x24 = readReg s 0x24 ∧ t.sp = .idle ∧ t.held = none ∧ t.asm.phase = .none ∧ t.xfer = ⟨false, 0⟩ ∧
      t.delay = none ∧ t.lockReq = false ∧ t.trace = [] ∧ irq t = false ∧ t.params = s.params ∧ t.turns = more

/-- R86: SEQ stores and moves pixel values without interpreting them: two states that differ only in pixel values,
staged bytes and recorded events take the same steps, and differ afterwards only in those. -/
def Obligations.PixelValuesNeverSteerTheMachine : Prop :=
  ∀ s s' : State, eraseData s = eraseData s' → eraseOut (step s) = eraseOut (step s')
end

