-- ==== Sys2Proof/Laws/State.lean ====
section
/-!
SUPPORT. For every named update of the state, what each field is after it: one lemma per field, true by `rfl`, so that no
later proof unfolds a record update.
-/

namespace Sys2Proof.Machine

/-! ### goto -/

@[simp] theorem goto_params (st : SeqStep) (n : Nat) (s : State) : (goto st n s).params = s.params := rfl
@[simp] theorem goto_turns (st : SeqStep) (n : Nat) (s : State) : (goto st n s).turns = s.turns := rfl
@[simp] theorem goto_held (st : SeqStep) (n : Nat) (s : State) : (goto st n s).held = s.held := rfl
@[simp] theorem goto_rdata (st : SeqStep) (n : Nat) (s : State) : (goto st n s).rdata = s.rdata := rfl
@[simp] theorem goto_state (st : SeqStep) (n : Nat) (s : State) : (goto st n s).state = s.state := rfl
@[simp] theorem goto_busy (st : SeqStep) (n : Nat) (s : State) : (goto st n s).busy = s.busy := rfl
@[simp] theorem goto_result (st : SeqStep) (n : Nat) (s : State) : (goto st n s).result = s.result := rfl
@[simp] theorem goto_lastOp (st : SeqStep) (n : Nat) (s : State) : (goto st n s).lastOp = s.lastOp := rfl
@[simp] theorem goto_locked (st : SeqStep) (n : Nat) (s : State) : (goto st n s).locked = s.locked := rfl
@[simp] theorem goto_closePending (st : SeqStep) (n : Nat) (s : State) : (goto st n s).closePending = s.closePending := rfl
@[simp] theorem goto_doneIe (st : SeqStep) (n : Nat) (s : State) : (goto st n s).doneIe = s.doneIe := rfl
@[simp] theorem goto_intDone (st : SeqStep) (n : Nat) (s : State) : (goto st n s).intDone = s.intDone := rfl
@[simp] theorem goto_intErr (st : SeqStep) (n : Nat) (s : State) : (goto st n s).intErr = s.intErr := rfl
@[simp] theorem goto_dw (st : SeqStep) (n : Nat) (s : State) : (goto st n s).dw = s.dw := rfl
@[simp] theorem goto_cfg (st : SeqStep) (n : Nat) (s : State) : (goto st n s).cfg = s.cfg := rfl
@[simp] theorem goto_chunksIssued (st : SeqStep) (n : Nat) (s : State) : (goto st n s).chunksIssued = s.chunksIssued := rfl
@[simp] theorem goto_chunksTotal (st : SeqStep) (n : Nat) (s : State) : (goto st n s).chunksTotal = s.chunksTotal := rfl
@[simp] theorem goto_csN (st : SeqStep) (n : Nat) (s : State) : (goto st n s).csN = s.csN := rfl
@[simp] theorem goto_dc (st : SeqStep) (n : Nat) (s : State) : (goto st n s).dc = s.dc := rfl
@[simp] theorem goto_rstN (st : SeqStep) (n : Nat) (s : State) : (goto st n s).rstN = s.rstN := rfl
@[simp] theorem goto_sp (st : SeqStep) (n : Nat) (s : State) : (goto st n s).sp = s.sp.moveTo st n := rfl
@[simp] theorem goto_asm (st : SeqStep) (n : Nat) (s : State) : (goto st n s).asm = s.asm := rfl
@[simp] theorem goto_xfer (st : SeqStep) (n : Nat) (s : State) : (goto st n s).xfer = s.xfer := rfl
@[simp] theorem goto_delay (st : SeqStep) (n : Nat) (s : State) : (goto st n s).delay = s.delay := rfl
@[simp] theorem goto_lockReq (st : SeqStep) (n : Nat) (s : State) : (goto st n s).lockReq = s.lockReq := rfl
@[simp] theorem goto_reply (st : SeqStep) (n : Nat) (s : State) : (goto st n s).reply = s.reply := rfl
@[simp] theorem goto_pb (st : SeqStep) (n : Nat) (s : State) : (goto st n s).pb = s.pb := rfl
@[simp] theorem goto_tb (st : SeqStep) (n : Nat) (s : State) : (goto st n s).tb = s.tb := rfl
@[simp] theorem goto_draw (st : SeqStep) (n : Nat) (s : State) : (goto st n s).draw = s.draw := rfl
@[simp] theorem goto_trace (st : SeqStep) (n : Nat) (s : State) : (goto st n s).trace = s.trace := rfl

/-! ### selectLine -/

@[simp] theorem selectLine_params (s : State) : (selectLine s).params = s.params := rfl
@[simp] theorem selectLine_turns (s : State) : (selectLine s).turns = s.turns := rfl
@[simp] theorem selectLine_held (s : State) : (selectLine s).held = s.held := rfl
@[simp] theorem selectLine_rdata (s : State) : (selectLine s).rdata = s.rdata := rfl
@[simp] theorem selectLine_state (s : State) : (selectLine s).state = s.state := rfl
@[simp] theorem selectLine_busy (s : State) : (selectLine s).busy = s.busy := rfl
@[simp] theorem selectLine_result (s : State) : (selectLine s).result = s.result := rfl
@[simp] theorem selectLine_lastOp (s : State) : (selectLine s).lastOp = s.lastOp := rfl
@[simp] theorem selectLine_locked (s : State) : (selectLine s).locked = s.locked := rfl
@[simp] theorem selectLine_closePending (s : State) : (selectLine s).closePending = s.closePending := rfl
@[simp] theorem selectLine_doneIe (s : State) : (selectLine s).doneIe = s.doneIe := rfl
@[simp] theorem selectLine_intDone (s : State) : (selectLine s).intDone = s.intDone := rfl
@[simp] theorem selectLine_intErr (s : State) : (selectLine s).intErr = s.intErr := rfl
@[simp] theorem selectLine_dw (s : State) : (selectLine s).dw = s.dw := rfl
@[simp] theorem selectLine_cfg (s : State) : (selectLine s).cfg = s.cfg := rfl
@[simp] theorem selectLine_chunksIssued (s : State) : (selectLine s).chunksIssued = s.chunksIssued := rfl
@[simp] theorem selectLine_chunksTotal (s : State) : (selectLine s).chunksTotal = s.chunksTotal := rfl
@[simp] theorem selectLine_csN (s : State) : (selectLine s).csN = false := rfl
@[simp] theorem selectLine_dc (s : State) : (selectLine s).dc = s.dc := rfl
@[simp] theorem selectLine_rstN (s : State) : (selectLine s).rstN = s.rstN := rfl
@[simp] theorem selectLine_sp (s : State) : (selectLine s).sp = s.sp := rfl
@[simp] theorem selectLine_asm (s : State) : (selectLine s).asm = s.asm := rfl
@[simp] theorem selectLine_xfer (s : State) : (selectLine s).xfer = s.xfer := rfl
@[simp] theorem selectLine_delay (s : State) : (selectLine s).delay = s.delay := rfl
@[simp] theorem selectLine_lockReq (s : State) : (selectLine s).lockReq = s.lockReq := rfl
@[simp] theorem selectLine_reply (s : State) : (selectLine s).reply = s.reply := rfl
@[simp] theorem selectLine_pb (s : State) : (selectLine s).pb = s.pb := rfl
@[simp] theorem selectLine_tb (s : State) : (selectLine s).tb = s.tb := rfl
@[simp] theorem selectLine_draw (s : State) : (selectLine s).draw = s.draw := rfl
@[simp] theorem selectLine_trace (s : State) : (selectLine s).trace = s.trace ++ if s.csN then [.cs false] else [] := rfl

/-! ### deselectLine -/

@[simp] theorem deselectLine_params (s : State) : (deselectLine s).params = s.params := rfl
@[simp] theorem deselectLine_turns (s : State) : (deselectLine s).turns = s.turns := rfl
@[simp] theorem deselectLine_held (s : State) : (deselectLine s).held = s.held := rfl
@[simp] theorem deselectLine_rdata (s : State) : (deselectLine s).rdata = s.rdata := rfl
@[simp] theorem deselectLine_state (s : State) : (deselectLine s).state = s.state := rfl
@[simp] theorem deselectLine_busy (s : State) : (deselectLine s).busy = s.busy := rfl
@[simp] theorem deselectLine_result (s : State) : (deselectLine s).result = s.result := rfl
@[simp] theorem deselectLine_lastOp (s : State) : (deselectLine s).lastOp = s.lastOp := rfl
@[simp] theorem deselectLine_locked (s : State) : (deselectLine s).locked = s.locked := rfl
@[simp] theorem deselectLine_closePending (s : State) : (deselectLine s).closePending = s.closePending := rfl
@[simp] theorem deselectLine_doneIe (s : State) : (deselectLine s).doneIe = s.doneIe := rfl
@[simp] theorem deselectLine_intDone (s : State) : (deselectLine s).intDone = s.intDone := rfl
@[simp] theorem deselectLine_intErr (s : State) : (deselectLine s).intErr = s.intErr := rfl
@[simp] theorem deselectLine_dw (s : State) : (deselectLine s).dw = s.dw := rfl
@[simp] theorem deselectLine_cfg (s : State) : (deselectLine s).cfg = s.cfg := rfl
@[simp] theorem deselectLine_chunksIssued (s : State) : (deselectLine s).chunksIssued = s.chunksIssued := rfl
@[simp] theorem deselectLine_chunksTotal (s : State) : (deselectLine s).chunksTotal = s.chunksTotal := rfl
@[simp] theorem deselectLine_csN (s : State) : (deselectLine s).csN = true := rfl
@[simp] theorem deselectLine_dc (s : State) : (deselectLine s).dc = s.dc := rfl
@[simp] theorem deselectLine_rstN (s : State) : (deselectLine s).rstN = s.rstN := rfl
@[simp] theorem deselectLine_sp (s : State) : (deselectLine s).sp = s.sp := rfl
@[simp] theorem deselectLine_asm (s : State) : (deselectLine s).asm = s.asm := rfl
@[simp] theorem deselectLine_xfer (s : State) : (deselectLine s).xfer = s.xfer := rfl
@[simp] theorem deselectLine_delay (s : State) : (deselectLine s).delay = s.delay := rfl
@[simp] theorem deselectLine_lockReq (s : State) : (deselectLine s).lockReq = s.lockReq := rfl
@[simp] theorem deselectLine_reply (s : State) : (deselectLine s).reply = s.reply := rfl
@[simp] theorem deselectLine_pb (s : State) : (deselectLine s).pb = s.pb := rfl
@[simp] theorem deselectLine_tb (s : State) : (deselectLine s).tb = s.tb := rfl
@[simp] theorem deselectLine_draw (s : State) : (deselectLine s).draw = s.draw := rfl
@[simp] theorem deselectLine_trace (s : State) : (deselectLine s).trace = s.trace ++ if s.csN then [] else [.cs true] := rfl

/-! ### cmdModeLine -/

@[simp] theorem cmdModeLine_params (s : State) : (cmdModeLine s).params = s.params := rfl
@[simp] theorem cmdModeLine_turns (s : State) : (cmdModeLine s).turns = s.turns := rfl
@[simp] theorem cmdModeLine_held (s : State) : (cmdModeLine s).held = s.held := rfl
@[simp] theorem cmdModeLine_rdata (s : State) : (cmdModeLine s).rdata = s.rdata := rfl
@[simp] theorem cmdModeLine_state (s : State) : (cmdModeLine s).state = s.state := rfl
@[simp] theorem cmdModeLine_busy (s : State) : (cmdModeLine s).busy = s.busy := rfl
@[simp] theorem cmdModeLine_result (s : State) : (cmdModeLine s).result = s.result := rfl
@[simp] theorem cmdModeLine_lastOp (s : State) : (cmdModeLine s).lastOp = s.lastOp := rfl
@[simp] theorem cmdModeLine_locked (s : State) : (cmdModeLine s).locked = s.locked := rfl
@[simp] theorem cmdModeLine_closePending (s : State) : (cmdModeLine s).closePending = s.closePending := rfl
@[simp] theorem cmdModeLine_doneIe (s : State) : (cmdModeLine s).doneIe = s.doneIe := rfl
@[simp] theorem cmdModeLine_intDone (s : State) : (cmdModeLine s).intDone = s.intDone := rfl
@[simp] theorem cmdModeLine_intErr (s : State) : (cmdModeLine s).intErr = s.intErr := rfl
@[simp] theorem cmdModeLine_dw (s : State) : (cmdModeLine s).dw = s.dw := rfl
@[simp] theorem cmdModeLine_cfg (s : State) : (cmdModeLine s).cfg = s.cfg := rfl
@[simp] theorem cmdModeLine_chunksIssued (s : State) : (cmdModeLine s).chunksIssued = s.chunksIssued := rfl
@[simp] theorem cmdModeLine_chunksTotal (s : State) : (cmdModeLine s).chunksTotal = s.chunksTotal := rfl
@[simp] theorem cmdModeLine_csN (s : State) : (cmdModeLine s).csN = s.csN := rfl
@[simp] theorem cmdModeLine_dc (s : State) : (cmdModeLine s).dc = false := rfl
@[simp] theorem cmdModeLine_rstN (s : State) : (cmdModeLine s).rstN = s.rstN := rfl
@[simp] theorem cmdModeLine_sp (s : State) : (cmdModeLine s).sp = s.sp := rfl
@[simp] theorem cmdModeLine_asm (s : State) : (cmdModeLine s).asm = s.asm := rfl
@[simp] theorem cmdModeLine_xfer (s : State) : (cmdModeLine s).xfer = s.xfer := rfl
@[simp] theorem cmdModeLine_delay (s : State) : (cmdModeLine s).delay = s.delay := rfl
@[simp] theorem cmdModeLine_lockReq (s : State) : (cmdModeLine s).lockReq = s.lockReq := rfl
@[simp] theorem cmdModeLine_reply (s : State) : (cmdModeLine s).reply = s.reply := rfl
@[simp] theorem cmdModeLine_pb (s : State) : (cmdModeLine s).pb = s.pb := rfl
@[simp] theorem cmdModeLine_tb (s : State) : (cmdModeLine s).tb = s.tb := rfl
@[simp] theorem cmdModeLine_draw (s : State) : (cmdModeLine s).draw = s.draw := rfl
@[simp] theorem cmdModeLine_trace (s : State) : (cmdModeLine s).trace = s.trace := rfl

/-! ### dataModeLine -/

@[simp] theorem dataModeLine_params (s : State) : (dataModeLine s).params = s.params := rfl
@[simp] theorem dataModeLine_turns (s : State) : (dataModeLine s).turns = s.turns := rfl
@[simp] theorem dataModeLine_held (s : State) : (dataModeLine s).held = s.held := rfl
@[simp] theorem dataModeLine_rdata (s : State) : (dataModeLine s).rdata = s.rdata := rfl
@[simp] theorem dataModeLine_state (s : State) : (dataModeLine s).state = s.state := rfl
@[simp] theorem dataModeLine_busy (s : State) : (dataModeLine s).busy = s.busy := rfl
@[simp] theorem dataModeLine_result (s : State) : (dataModeLine s).result = s.result := rfl
@[simp] theorem dataModeLine_lastOp (s : State) : (dataModeLine s).lastOp = s.lastOp := rfl
@[simp] theorem dataModeLine_locked (s : State) : (dataModeLine s).locked = s.locked := rfl
@[simp] theorem dataModeLine_closePending (s : State) : (dataModeLine s).closePending = s.closePending := rfl
@[simp] theorem dataModeLine_doneIe (s : State) : (dataModeLine s).doneIe = s.doneIe := rfl
@[simp] theorem dataModeLine_intDone (s : State) : (dataModeLine s).intDone = s.intDone := rfl
@[simp] theorem dataModeLine_intErr (s : State) : (dataModeLine s).intErr = s.intErr := rfl
@[simp] theorem dataModeLine_dw (s : State) : (dataModeLine s).dw = s.dw := rfl
@[simp] theorem dataModeLine_cfg (s : State) : (dataModeLine s).cfg = s.cfg := rfl
@[simp] theorem dataModeLine_chunksIssued (s : State) : (dataModeLine s).chunksIssued = s.chunksIssued := rfl
@[simp] theorem dataModeLine_chunksTotal (s : State) : (dataModeLine s).chunksTotal = s.chunksTotal := rfl
@[simp] theorem dataModeLine_csN (s : State) : (dataModeLine s).csN = s.csN := rfl
@[simp] theorem dataModeLine_dc (s : State) : (dataModeLine s).dc = true := rfl
@[simp] theorem dataModeLine_rstN (s : State) : (dataModeLine s).rstN = s.rstN := rfl
@[simp] theorem dataModeLine_sp (s : State) : (dataModeLine s).sp = s.sp := rfl
@[simp] theorem dataModeLine_asm (s : State) : (dataModeLine s).asm = s.asm := rfl
@[simp] theorem dataModeLine_xfer (s : State) : (dataModeLine s).xfer = s.xfer := rfl
@[simp] theorem dataModeLine_delay (s : State) : (dataModeLine s).delay = s.delay := rfl
@[simp] theorem dataModeLine_lockReq (s : State) : (dataModeLine s).lockReq = s.lockReq := rfl
@[simp] theorem dataModeLine_reply (s : State) : (dataModeLine s).reply = s.reply := rfl
@[simp] theorem dataModeLine_pb (s : State) : (dataModeLine s).pb = s.pb := rfl
@[simp] theorem dataModeLine_tb (s : State) : (dataModeLine s).tb = s.tb := rfl
@[simp] theorem dataModeLine_draw (s : State) : (dataModeLine s).draw = s.draw := rfl
@[simp] theorem dataModeLine_trace (s : State) : (dataModeLine s).trace = s.trace := rfl

/-! ### resetLowLine -/

@[simp] theorem resetLowLine_params (s : State) : (resetLowLine s).params = s.params := rfl
@[simp] theorem resetLowLine_turns (s : State) : (resetLowLine s).turns = s.turns := rfl
@[simp] theorem resetLowLine_held (s : State) : (resetLowLine s).held = s.held := rfl
@[simp] theorem resetLowLine_rdata (s : State) : (resetLowLine s).rdata = s.rdata := rfl
@[simp] theorem resetLowLine_state (s : State) : (resetLowLine s).state = s.state := rfl
@[simp] theorem resetLowLine_busy (s : State) : (resetLowLine s).busy = s.busy := rfl
@[simp] theorem resetLowLine_result (s : State) : (resetLowLine s).result = s.result := rfl
@[simp] theorem resetLowLine_lastOp (s : State) : (resetLowLine s).lastOp = s.lastOp := rfl
@[simp] theorem resetLowLine_locked (s : State) : (resetLowLine s).locked = s.locked := rfl
@[simp] theorem resetLowLine_closePending (s : State) : (resetLowLine s).closePending = s.closePending := rfl
@[simp] theorem resetLowLine_doneIe (s : State) : (resetLowLine s).doneIe = s.doneIe := rfl
@[simp] theorem resetLowLine_intDone (s : State) : (resetLowLine s).intDone = s.intDone := rfl
@[simp] theorem resetLowLine_intErr (s : State) : (resetLowLine s).intErr = s.intErr := rfl
@[simp] theorem resetLowLine_dw (s : State) : (resetLowLine s).dw = s.dw := rfl
@[simp] theorem resetLowLine_cfg (s : State) : (resetLowLine s).cfg = s.cfg := rfl
@[simp] theorem resetLowLine_chunksIssued (s : State) : (resetLowLine s).chunksIssued = s.chunksIssued := rfl
@[simp] theorem resetLowLine_chunksTotal (s : State) : (resetLowLine s).chunksTotal = s.chunksTotal := rfl
@[simp] theorem resetLowLine_csN (s : State) : (resetLowLine s).csN = s.csN := rfl
@[simp] theorem resetLowLine_dc (s : State) : (resetLowLine s).dc = s.dc := rfl
@[simp] theorem resetLowLine_rstN (s : State) : (resetLowLine s).rstN = false := rfl
@[simp] theorem resetLowLine_sp (s : State) : (resetLowLine s).sp = s.sp := rfl
@[simp] theorem resetLowLine_asm (s : State) : (resetLowLine s).asm = s.asm := rfl
@[simp] theorem resetLowLine_xfer (s : State) : (resetLowLine s).xfer = s.xfer := rfl
@[simp] theorem resetLowLine_delay (s : State) : (resetLowLine s).delay = s.delay := rfl
@[simp] theorem resetLowLine_lockReq (s : State) : (resetLowLine s).lockReq = s.lockReq := rfl
@[simp] theorem resetLowLine_reply (s : State) : (resetLowLine s).reply = s.reply := rfl
@[simp] theorem resetLowLine_pb (s : State) : (resetLowLine s).pb = s.pb := rfl
@[simp] theorem resetLowLine_tb (s : State) : (resetLowLine s).tb = s.tb := rfl
@[simp] theorem resetLowLine_draw (s : State) : (resetLowLine s).draw = s.draw := rfl
@[simp] theorem resetLowLine_trace (s : State) : (resetLowLine s).trace = s.trace ++ if s.rstN then [.rst false] else [] := rfl

/-! ### resetHighLine -/

@[simp] theorem resetHighLine_params (s : State) : (resetHighLine s).params = s.params := rfl
@[simp] theorem resetHighLine_turns (s : State) : (resetHighLine s).turns = s.turns := rfl
@[simp] theorem resetHighLine_held (s : State) : (resetHighLine s).held = s.held := rfl
@[simp] theorem resetHighLine_rdata (s : State) : (resetHighLine s).rdata = s.rdata := rfl
@[simp] theorem resetHighLine_state (s : State) : (resetHighLine s).state = s.state := rfl
@[simp] theorem resetHighLine_busy (s : State) : (resetHighLine s).busy = s.busy := rfl
@[simp] theorem resetHighLine_result (s : State) : (resetHighLine s).result = s.result := rfl
@[simp] theorem resetHighLine_lastOp (s : State) : (resetHighLine s).lastOp = s.lastOp := rfl
@[simp] theorem resetHighLine_locked (s : State) : (resetHighLine s).locked = s.locked := rfl
@[simp] theorem resetHighLine_closePending (s : State) : (resetHighLine s).closePending = s.closePending := rfl
@[simp] theorem resetHighLine_doneIe (s : State) : (resetHighLine s).doneIe = s.doneIe := rfl
@[simp] theorem resetHighLine_intDone (s : State) : (resetHighLine s).intDone = s.intDone := rfl
@[simp] theorem resetHighLine_intErr (s : State) : (resetHighLine s).intErr = s.intErr := rfl
@[simp] theorem resetHighLine_dw (s : State) : (resetHighLine s).dw = s.dw := rfl
@[simp] theorem resetHighLine_cfg (s : State) : (resetHighLine s).cfg = s.cfg := rfl
@[simp] theorem resetHighLine_chunksIssued (s : State) : (resetHighLine s).chunksIssued = s.chunksIssued := rfl
@[simp] theorem resetHighLine_chunksTotal (s : State) : (resetHighLine s).chunksTotal = s.chunksTotal := rfl
@[simp] theorem resetHighLine_csN (s : State) : (resetHighLine s).csN = s.csN := rfl
@[simp] theorem resetHighLine_dc (s : State) : (resetHighLine s).dc = s.dc := rfl
@[simp] theorem resetHighLine_rstN (s : State) : (resetHighLine s).rstN = true := rfl
@[simp] theorem resetHighLine_sp (s : State) : (resetHighLine s).sp = s.sp := rfl
@[simp] theorem resetHighLine_asm (s : State) : (resetHighLine s).asm = s.asm := rfl
@[simp] theorem resetHighLine_xfer (s : State) : (resetHighLine s).xfer = s.xfer := rfl
@[simp] theorem resetHighLine_delay (s : State) : (resetHighLine s).delay = s.delay := rfl
@[simp] theorem resetHighLine_lockReq (s : State) : (resetHighLine s).lockReq = s.lockReq := rfl
@[simp] theorem resetHighLine_reply (s : State) : (resetHighLine s).reply = s.reply := rfl
@[simp] theorem resetHighLine_pb (s : State) : (resetHighLine s).pb = s.pb := rfl
@[simp] theorem resetHighLine_tb (s : State) : (resetHighLine s).tb = s.tb := rfl
@[simp] theorem resetHighLine_draw (s : State) : (resetHighLine s).draw = s.draw := rfl
@[simp] theorem resetHighLine_trace (s : State) : (resetHighLine s).trace = s.trace ++ if s.rstN then [] else [.rst true] := rfl

/-! ### recordAnswer -/

@[simp] theorem recordAnswer_params (a : Answer) (s : State) : (recordAnswer a s).params = s.params := rfl
@[simp] theorem recordAnswer_turns (a : Answer) (s : State) : (recordAnswer a s).turns = s.turns := rfl
@[simp] theorem recordAnswer_held (a : Answer) (s : State) : (recordAnswer a s).held = s.held := rfl
@[simp] theorem recordAnswer_rdata (a : Answer) (s : State) : (recordAnswer a s).rdata = s.rdata := rfl
@[simp] theorem recordAnswer_state (a : Answer) (s : State) : (recordAnswer a s).state = s.state := rfl
@[simp] theorem recordAnswer_busy (a : Answer) (s : State) : (recordAnswer a s).busy = s.busy := rfl
@[simp] theorem recordAnswer_result (a : Answer) (s : State) : (recordAnswer a s).result = s.result := rfl
@[simp] theorem recordAnswer_lastOp (a : Answer) (s : State) : (recordAnswer a s).lastOp = s.lastOp := rfl
@[simp] theorem recordAnswer_locked (a : Answer) (s : State) : (recordAnswer a s).locked = s.locked := rfl
@[simp] theorem recordAnswer_closePending (a : Answer) (s : State) : (recordAnswer a s).closePending = s.closePending := rfl
@[simp] theorem recordAnswer_doneIe (a : Answer) (s : State) : (recordAnswer a s).doneIe = s.doneIe := rfl
@[simp] theorem recordAnswer_intDone (a : Answer) (s : State) : (recordAnswer a s).intDone = s.intDone := rfl
@[simp] theorem recordAnswer_intErr (a : Answer) (s : State) : (recordAnswer a s).intErr = s.intErr := rfl
@[simp] theorem recordAnswer_dw (a : Answer) (s : State) : (recordAnswer a s).dw = s.dw := rfl
@[simp] theorem recordAnswer_cfg (a : Answer) (s : State) : (recordAnswer a s).cfg = s.cfg := rfl
@[simp] theorem recordAnswer_chunksIssued (a : Answer) (s : State) : (recordAnswer a s).chunksIssued = s.chunksIssued := rfl
@[simp] theorem recordAnswer_chunksTotal (a : Answer) (s : State) : (recordAnswer a s).chunksTotal = s.chunksTotal := rfl
@[simp] theorem recordAnswer_csN (a : Answer) (s : State) : (recordAnswer a s).csN = s.csN := rfl
@[simp] theorem recordAnswer_dc (a : Answer) (s : State) : (recordAnswer a s).dc = s.dc := rfl
@[simp] theorem recordAnswer_rstN (a : Answer) (s : State) : (recordAnswer a s).rstN = s.rstN := rfl
@[simp] theorem recordAnswer_sp (a : Answer) (s : State) : (recordAnswer a s).sp = s.sp := rfl
@[simp] theorem recordAnswer_asm (a : Answer) (s : State) : (recordAnswer a s).asm = s.asm := rfl
@[simp] theorem recordAnswer_xfer (a : Answer) (s : State) : (recordAnswer a s).xfer = { pending := false, len := s.xfer.len } := rfl
@[simp] theorem recordAnswer_delay (a : Answer) (s : State) : (recordAnswer a s).delay = s.delay := rfl
@[simp] theorem recordAnswer_lockReq (a : Answer) (s : State) : (recordAnswer a s).lockReq = s.lockReq := rfl
@[simp] theorem recordAnswer_reply (a : Answer) (s : State) : (recordAnswer a s).reply = some a := rfl
@[simp] theorem recordAnswer_pb (a : Answer) (s : State) : (recordAnswer a s).pb = s.pb := rfl
@[simp] theorem recordAnswer_tb (a : Answer) (s : State) : (recordAnswer a s).tb = s.tb := rfl
@[simp] theorem recordAnswer_draw (a : Answer) (s : State) : (recordAnswer a s).draw = s.draw := rfl
@[simp] theorem recordAnswer_trace (a : Answer) (s : State) : (recordAnswer a s).trace = s.trace ++ [.tx (modeOf s.dc) (sentBytes s) a] := rfl

/-! ### requestDelay -/

@[simp] theorem requestDelay_params (ms : Half) (s : State) : (requestDelay ms s).params = s.params := rfl
@[simp] theorem requestDelay_turns (ms : Half) (s : State) : (requestDelay ms s).turns = s.turns := rfl
@[simp] theorem requestDelay_held (ms : Half) (s : State) : (requestDelay ms s).held = s.held := rfl
@[simp] theorem requestDelay_rdata (ms : Half) (s : State) : (requestDelay ms s).rdata = s.rdata := rfl
@[simp] theorem requestDelay_state (ms : Half) (s : State) : (requestDelay ms s).state = s.state := rfl
@[simp] theorem requestDelay_busy (ms : Half) (s : State) : (requestDelay ms s).busy = s.busy := rfl
@[simp] theorem requestDelay_result (ms : Half) (s : State) : (requestDelay ms s).result = s.result := rfl
@[simp] theorem requestDelay_lastOp (ms : Half) (s : State) : (requestDelay ms s).lastOp = s.lastOp := rfl
@[simp] theorem requestDelay_locked (ms : Half) (s : State) : (requestDelay ms s).locked = s.locked := rfl
@[simp] theorem requestDelay_closePending (ms : Half) (s : State) : (requestDelay ms s).closePending = s.closePending := rfl
@[simp] theorem requestDelay_doneIe (ms : Half) (s : State) : (requestDelay ms s).doneIe = s.doneIe := rfl
@[simp] theorem requestDelay_intDone (ms : Half) (s : State) : (requestDelay ms s).intDone = s.intDone := rfl
@[simp] theorem requestDelay_intErr (ms : Half) (s : State) : (requestDelay ms s).intErr = s.intErr := rfl
@[simp] theorem requestDelay_dw (ms : Half) (s : State) : (requestDelay ms s).dw = s.dw := rfl
@[simp] theorem requestDelay_cfg (ms : Half) (s : State) : (requestDelay ms s).cfg = s.cfg := rfl
@[simp] theorem requestDelay_chunksIssued (ms : Half) (s : State) : (requestDelay ms s).chunksIssued = s.chunksIssued := rfl
@[simp] theorem requestDelay_chunksTotal (ms : Half) (s : State) : (requestDelay ms s).chunksTotal = s.chunksTotal := rfl
@[simp] theorem requestDelay_csN (ms : Half) (s : State) : (requestDelay ms s).csN = s.csN := rfl
@[simp] theorem requestDelay_dc (ms : Half) (s : State) : (requestDelay ms s).dc = s.dc := rfl
@[simp] theorem requestDelay_rstN (ms : Half) (s : State) : (requestDelay ms s).rstN = s.rstN := rfl
@[simp] theorem requestDelay_sp (ms : Half) (s : State) : (requestDelay ms s).sp = s.sp := rfl
@[simp] theorem requestDelay_asm (ms : Half) (s : State) : (requestDelay ms s).asm = s.asm := rfl
@[simp] theorem requestDelay_xfer (ms : Half) (s : State) : (requestDelay ms s).xfer = s.xfer := rfl
@[simp] theorem requestDelay_delay (ms : Half) (s : State) : (requestDelay ms s).delay = some ms := rfl
@[simp] theorem requestDelay_lockReq (ms : Half) (s : State) : (requestDelay ms s).lockReq = s.lockReq := rfl
@[simp] theorem requestDelay_reply (ms : Half) (s : State) : (requestDelay ms s).reply = s.reply := rfl
@[simp] theorem requestDelay_pb (ms : Half) (s : State) : (requestDelay ms s).pb = s.pb := rfl
@[simp] theorem requestDelay_tb (ms : Half) (s : State) : (requestDelay ms s).tb = s.tb := rfl
@[simp] theorem requestDelay_draw (ms : Half) (s : State) : (requestDelay ms s).draw = s.draw := rfl
@[simp] theorem requestDelay_trace (ms : Half) (s : State) : (requestDelay ms s).trace = s.trace ++ [.wait ms] := rfl

/-! ### takeLock -/

@[simp] theorem takeLock_params (s : State) : (takeLock s).params = s.params := rfl
@[simp] theorem takeLock_turns (s : State) : (takeLock s).turns = s.turns := rfl
@[simp] theorem takeLock_held (s : State) : (takeLock s).held = s.held := rfl
@[simp] theorem takeLock_rdata (s : State) : (takeLock s).rdata = s.rdata := rfl
@[simp] theorem takeLock_state (s : State) : (takeLock s).state = s.state := rfl
@[simp] theorem takeLock_busy (s : State) : (takeLock s).busy = s.busy := rfl
@[simp] theorem takeLock_result (s : State) : (takeLock s).result = s.result := rfl
@[simp] theorem takeLock_lastOp (s : State) : (takeLock s).lastOp = s.lastOp := rfl
@[simp] theorem takeLock_locked (s : State) : (takeLock s).locked = true := rfl
@[simp] theorem takeLock_closePending (s : State) : (takeLock s).closePending = s.closePending := rfl
@[simp] theorem takeLock_doneIe (s : State) : (takeLock s).doneIe = s.doneIe := rfl
@[simp] theorem takeLock_intDone (s : State) : (takeLock s).intDone = s.intDone := rfl
@[simp] theorem takeLock_intErr (s : State) : (takeLock s).intErr = s.intErr := rfl
@[simp] theorem takeLock_dw (s : State) : (takeLock s).dw = s.dw := rfl
@[simp] theorem takeLock_cfg (s : State) : (takeLock s).cfg = s.cfg := rfl
@[simp] theorem takeLock_chunksIssued (s : State) : (takeLock s).chunksIssued = s.chunksIssued := rfl
@[simp] theorem takeLock_chunksTotal (s : State) : (takeLock s).chunksTotal = s.chunksTotal := rfl
@[simp] theorem takeLock_csN (s : State) : (takeLock s).csN = s.csN := rfl
@[simp] theorem takeLock_dc (s : State) : (takeLock s).dc = s.dc := rfl
@[simp] theorem takeLock_rstN (s : State) : (takeLock s).rstN = s.rstN := rfl
@[simp] theorem takeLock_sp (s : State) : (takeLock s).sp = s.sp := rfl
@[simp] theorem takeLock_asm (s : State) : (takeLock s).asm = s.asm := rfl
@[simp] theorem takeLock_xfer (s : State) : (takeLock s).xfer = s.xfer := rfl
@[simp] theorem takeLock_delay (s : State) : (takeLock s).delay = s.delay := rfl
@[simp] theorem takeLock_lockReq (s : State) : (takeLock s).lockReq = s.lockReq := rfl
@[simp] theorem takeLock_reply (s : State) : (takeLock s).reply = s.reply := rfl
@[simp] theorem takeLock_pb (s : State) : (takeLock s).pb = s.pb := rfl
@[simp] theorem takeLock_tb (s : State) : (takeLock s).tb = s.tb := rfl
@[simp] theorem takeLock_draw (s : State) : (takeLock s).draw = s.draw := rfl
@[simp] theorem takeLock_trace (s : State) : (takeLock s).trace = s.trace ++ if s.params.sharedBus then [.lock] else [] := rfl

/-! ### releaseLock -/

@[simp] theorem releaseLock_params (s : State) : (releaseLock s).params = s.params := rfl
@[simp] theorem releaseLock_turns (s : State) : (releaseLock s).turns = s.turns := rfl
@[simp] theorem releaseLock_held (s : State) : (releaseLock s).held = s.held := rfl
@[simp] theorem releaseLock_rdata (s : State) : (releaseLock s).rdata = s.rdata := rfl
@[simp] theorem releaseLock_state (s : State) : (releaseLock s).state = s.state := rfl
@[simp] theorem releaseLock_busy (s : State) : (releaseLock s).busy = s.busy := rfl
@[simp] theorem releaseLock_result (s : State) : (releaseLock s).result = s.result := rfl
@[simp] theorem releaseLock_lastOp (s : State) : (releaseLock s).lastOp = s.lastOp := rfl
@[simp] theorem releaseLock_locked (s : State) : (releaseLock s).locked = false := rfl
@[simp] theorem releaseLock_closePending (s : State) : (releaseLock s).closePending = s.closePending := rfl
@[simp] theorem releaseLock_doneIe (s : State) : (releaseLock s).doneIe = s.doneIe := rfl
@[simp] theorem releaseLock_intDone (s : State) : (releaseLock s).intDone = s.intDone := rfl
@[simp] theorem releaseLock_intErr (s : State) : (releaseLock s).intErr = s.intErr := rfl
@[simp] theorem releaseLock_dw (s : State) : (releaseLock s).dw = s.dw := rfl
@[simp] theorem releaseLock_cfg (s : State) : (releaseLock s).cfg = s.cfg := rfl
@[simp] theorem releaseLock_chunksIssued (s : State) : (releaseLock s).chunksIssued = s.chunksIssued := rfl
@[simp] theorem releaseLock_chunksTotal (s : State) : (releaseLock s).chunksTotal = s.chunksTotal := rfl
@[simp] theorem releaseLock_csN (s : State) : (releaseLock s).csN = s.csN := rfl
@[simp] theorem releaseLock_dc (s : State) : (releaseLock s).dc = s.dc := rfl
@[simp] theorem releaseLock_rstN (s : State) : (releaseLock s).rstN = s.rstN := rfl
@[simp] theorem releaseLock_sp (s : State) : (releaseLock s).sp = s.sp := rfl
@[simp] theorem releaseLock_asm (s : State) : (releaseLock s).asm = s.asm := rfl
@[simp] theorem releaseLock_xfer (s : State) : (releaseLock s).xfer = s.xfer := rfl
@[simp] theorem releaseLock_delay (s : State) : (releaseLock s).delay = s.delay := rfl
@[simp] theorem releaseLock_lockReq (s : State) : (releaseLock s).lockReq = (s.lockReq && !(s.locked && s.params.sharedBus)) := rfl
@[simp] theorem releaseLock_reply (s : State) : (releaseLock s).reply = s.reply := rfl
@[simp] theorem releaseLock_pb (s : State) : (releaseLock s).pb = s.pb := rfl
@[simp] theorem releaseLock_tb (s : State) : (releaseLock s).tb = s.tb := rfl
@[simp] theorem releaseLock_draw (s : State) : (releaseLock s).draw = s.draw := rfl
@[simp] theorem releaseLock_trace (s : State) : (releaseLock s).trace = s.trace ++ if s.locked && s.params.sharedBus then [.unlock] else [] := rfl

/-! ### extendDirty -/

@[simp] theorem extendDirty_params (ax ay bx by' : Half) (s : State) : (extendDirty ax ay bx by' s).params = s.params := rfl
@[simp] theorem extendDirty_turns (ax ay bx by' : Half) (s : State) : (extendDirty ax ay bx by' s).turns = s.turns := rfl
@[simp] theorem extendDirty_held (ax ay bx by' : Half) (s : State) : (extendDirty ax ay bx by' s).held = s.held := rfl
@[simp] theorem extendDirty_rdata (ax ay bx by' : Half) (s : State) : (extendDirty ax ay bx by' s).rdata = s.rdata := rfl
@[simp] theorem extendDirty_state (ax ay bx by' : Half) (s : State) : (extendDirty ax ay bx by' s).state = s.state := rfl
@[simp] theorem extendDirty_busy (ax ay bx by' : Half) (s : State) : (extendDirty ax ay bx by' s).busy = s.busy := rfl
@[simp] theorem extendDirty_result (ax ay bx by' : Half) (s : State) : (extendDirty ax ay bx by' s).result = s.result := rfl
@[simp] theorem extendDirty_lastOp (ax ay bx by' : Half) (s : State) : (extendDirty ax ay bx by' s).lastOp = s.lastOp := rfl
@[simp] theorem extendDirty_locked (ax ay bx by' : Half) (s : State) : (extendDirty ax ay bx by' s).locked = s.locked := rfl
@[simp] theorem extendDirty_closePending (ax ay bx by' : Half) (s : State) : (extendDirty ax ay bx by' s).closePending = s.closePending := rfl
@[simp] theorem extendDirty_doneIe (ax ay bx by' : Half) (s : State) : (extendDirty ax ay bx by' s).doneIe = s.doneIe := rfl
@[simp] theorem extendDirty_intDone (ax ay bx by' : Half) (s : State) : (extendDirty ax ay bx by' s).intDone = s.intDone := rfl
@[simp] theorem extendDirty_intErr (ax ay bx by' : Half) (s : State) : (extendDirty ax ay bx by' s).intErr = s.intErr := rfl
@[simp] theorem extendDirty_dw (ax ay bx by' : Half) (s : State) : (extendDirty ax ay bx by' s).dw = s.dw.extend ax ay bx by' := rfl
@[simp] theorem extendDirty_cfg (ax ay bx by' : Half) (s : State) : (extendDirty ax ay bx by' s).cfg = s.cfg := rfl
@[simp] theorem extendDirty_chunksIssued (ax ay bx by' : Half) (s : State) : (extendDirty ax ay bx by' s).chunksIssued = s.chunksIssued := rfl
@[simp] theorem extendDirty_chunksTotal (ax ay bx by' : Half) (s : State) : (extendDirty ax ay bx by' s).chunksTotal = s.chunksTotal := rfl
@[simp] theorem extendDirty_csN (ax ay bx by' : Half) (s : State) : (extendDirty ax ay bx by' s).csN = s.csN := rfl
@[simp] theorem extendDirty_dc (ax ay bx by' : Half) (s : State) : (extendDirty ax ay bx by' s).dc = s.dc := rfl
@[simp] theorem extendDirty_rstN (ax ay bx by' : Half) (s : State) : (extendDirty ax ay bx by' s).rstN = s.rstN := rfl
@[simp] theorem extendDirty_sp (ax ay bx by' : Half) (s : State) : (extendDirty ax ay bx by' s).sp = s.sp := rfl
@[simp] theorem extendDirty_asm (ax ay bx by' : Half) (s : State) : (extendDirty ax ay bx by' s).asm = s.asm := rfl
@[simp] theorem extendDirty_xfer (ax ay bx by' : Half) (s : State) : (extendDirty ax ay bx by' s).xfer = s.xfer := rfl
@[simp] theorem extendDirty_delay (ax ay bx by' : Half) (s : State) : (extendDirty ax ay bx by' s).delay = s.delay := rfl
@[simp] theorem extendDirty_lockReq (ax ay bx by' : Half) (s : State) : (extendDirty ax ay bx by' s).lockReq = s.lockReq := rfl
@[simp] theorem extendDirty_reply (ax ay bx by' : Half) (s : State) : (extendDirty ax ay bx by' s).reply = s.reply := rfl
@[simp] theorem extendDirty_pb (ax ay bx by' : Half) (s : State) : (extendDirty ax ay bx by' s).pb = s.pb := rfl
@[simp] theorem extendDirty_tb (ax ay bx by' : Half) (s : State) : (extendDirty ax ay bx by' s).tb = s.tb := rfl
@[simp] theorem extendDirty_draw (ax ay bx by' : Half) (s : State) : (extendDirty ax ay bx by' s).draw = s.draw := rfl
@[simp] theorem extendDirty_trace (ax ay bx by' : Half) (s : State) : (extendDirty ax ay bx by' s).trace = s.trace := rfl

/-! ### fillPixels -/

@[simp] theorem fillPixels_params (v : Half) (s : State) : (fillPixels v s).params = s.params := rfl
@[simp] theorem fillPixels_turns (v : Half) (s : State) : (fillPixels v s).turns = s.turns := rfl
@[simp] theorem fillPixels_held (v : Half) (s : State) : (fillPixels v s).held = s.held := rfl
@[simp] theorem fillPixels_rdata (v : Half) (s : State) : (fillPixels v s).rdata = s.rdata := rfl
@[simp] theorem fillPixels_state (v : Half) (s : State) : (fillPixels v s).state = s.state := rfl
@[simp] theorem fillPixels_busy (v : Half) (s : State) : (fillPixels v s).busy = s.busy := rfl
@[simp] theorem fillPixels_result (v : Half) (s : State) : (fillPixels v s).result = s.result := rfl
@[simp] theorem fillPixels_lastOp (v : Half) (s : State) : (fillPixels v s).lastOp = s.lastOp := rfl
@[simp] theorem fillPixels_locked (v : Half) (s : State) : (fillPixels v s).locked = s.locked := rfl
@[simp] theorem fillPixels_closePending (v : Half) (s : State) : (fillPixels v s).closePending = s.closePending := rfl
@[simp] theorem fillPixels_doneIe (v : Half) (s : State) : (fillPixels v s).doneIe = s.doneIe := rfl
@[simp] theorem fillPixels_intDone (v : Half) (s : State) : (fillPixels v s).intDone = s.intDone := rfl
@[simp] theorem fillPixels_intErr (v : Half) (s : State) : (fillPixels v s).intErr = s.intErr := rfl
@[simp] theorem fillPixels_dw (v : Half) (s : State) : (fillPixels v s).dw = s.dw := rfl
@[simp] theorem fillPixels_cfg (v : Half) (s : State) : (fillPixels v s).cfg = s.cfg := rfl
@[simp] theorem fillPixels_chunksIssued (v : Half) (s : State) : (fillPixels v s).chunksIssued = s.chunksIssued := rfl
@[simp] theorem fillPixels_chunksTotal (v : Half) (s : State) : (fillPixels v s).chunksTotal = s.chunksTotal := rfl
@[simp] theorem fillPixels_csN (v : Half) (s : State) : (fillPixels v s).csN = s.csN := rfl
@[simp] theorem fillPixels_dc (v : Half) (s : State) : (fillPixels v s).dc = s.dc := rfl
@[simp] theorem fillPixels_rstN (v : Half) (s : State) : (fillPixels v s).rstN = s.rstN := rfl
@[simp] theorem fillPixels_sp (v : Half) (s : State) : (fillPixels v s).sp = s.sp := rfl
@[simp] theorem fillPixels_asm (v : Half) (s : State) : (fillPixels v s).asm = s.asm := rfl
@[simp] theorem fillPixels_xfer (v : Half) (s : State) : (fillPixels v s).xfer = s.xfer := rfl
@[simp] theorem fillPixels_delay (v : Half) (s : State) : (fillPixels v s).delay = s.delay := rfl
@[simp] theorem fillPixels_lockReq (v : Half) (s : State) : (fillPixels v s).lockReq = s.lockReq := rfl
@[simp] theorem fillPixels_reply (v : Half) (s : State) : (fillPixels v s).reply = s.reply := rfl
@[simp] theorem fillPixels_pb (v : Half) (s : State) : (fillPixels v s).pb = (List.range (pbSize s.params)).map fun i => (i, v) := rfl
@[simp] theorem fillPixels_tb (v : Half) (s : State) : (fillPixels v s).tb = s.tb := rfl
@[simp] theorem fillPixels_draw (v : Half) (s : State) : (fillPixels v s).draw = s.draw := rfl
@[simp] theorem fillPixels_trace (v : Half) (s : State) : (fillPixels v s).trace = s.trace := rfl

/-! ### complete -/

@[simp] theorem complete_params (c : Code) (s : State) : (complete c s).params = s.params := rfl
@[simp] theorem complete_turns (c : Code) (s : State) : (complete c s).turns = s.turns := rfl
@[simp] theorem complete_held (c : Code) (s : State) : (complete c s).held = s.held := rfl
@[simp] theorem complete_rdata (c : Code) (s : State) : (complete c s).rdata = s.rdata := rfl
@[simp] theorem complete_state (c : Code) (s : State) : (complete c s).state = s.state := rfl
@[simp] theorem complete_busy (c : Code) (s : State) : (complete c s).busy = false := rfl
@[simp] theorem complete_result (c : Code) (s : State) : (complete c s).result = c := rfl
@[simp] theorem complete_lastOp (c : Code) (s : State) : (complete c s).lastOp = opField s.asm.hdr := rfl
@[simp] theorem complete_locked (c : Code) (s : State) : (complete c s).locked = s.locked := rfl
@[simp] theorem complete_closePending (c : Code) (s : State) : (complete c s).closePending = s.closePending := rfl
@[simp] theorem complete_doneIe (c : Code) (s : State) : (complete c s).doneIe = s.doneIe := rfl
@[simp] theorem complete_intDone (c : Code) (s : State) : (complete c s).intDone = true := rfl
@[simp] theorem complete_intErr (c : Code) (s : State) : (complete c s).intErr = (s.intErr || decide (c ≠ .ok)) := rfl
@[simp] theorem complete_dw (c : Code) (s : State) : (complete c s).dw = s.dw := rfl
@[simp] theorem complete_cfg (c : Code) (s : State) : (complete c s).cfg = s.cfg := rfl
@[simp] theorem complete_chunksIssued (c : Code) (s : State) : (complete c s).chunksIssued = s.chunksIssued := rfl
@[simp] theorem complete_chunksTotal (c : Code) (s : State) : (complete c s).chunksTotal = s.chunksTotal := rfl
@[simp] theorem complete_csN (c : Code) (s : State) : (complete c s).csN = s.csN := rfl
@[simp] theorem complete_dc (c : Code) (s : State) : (complete c s).dc = s.dc := rfl
@[simp] theorem complete_rstN (c : Code) (s : State) : (complete c s).rstN = s.rstN := rfl
@[simp] theorem complete_sp (c : Code) (s : State) : (complete c s).sp = .idle := rfl
@[simp] theorem complete_asm (c : Code) (s : State) : (complete c s).asm = s.asm := rfl
@[simp] theorem complete_xfer (c : Code) (s : State) : (complete c s).xfer = s.xfer := rfl
@[simp] theorem complete_delay (c : Code) (s : State) : (complete c s).delay = s.delay := rfl
@[simp] theorem complete_lockReq (c : Code) (s : State) : (complete c s).lockReq = s.lockReq := rfl
@[simp] theorem complete_reply (c : Code) (s : State) : (complete c s).reply = s.reply := rfl
@[simp] theorem complete_pb (c : Code) (s : State) : (complete c s).pb = s.pb := rfl
@[simp] theorem complete_tb (c : Code) (s : State) : (complete c s).tb = s.tb := rfl
@[simp] theorem complete_draw (c : Code) (s : State) : (complete c s).draw = s.draw := rfl
@[simp] theorem complete_trace (c : Code) (s : State) : (complete c s).trace = s.trace := rfl

/-! ### startCommand -/

@[simp] theorem startCommand_params (s : State) : (startCommand s).params = s.params := rfl
@[simp] theorem startCommand_turns (s : State) : (startCommand s).turns = s.turns := rfl
@[simp] theorem startCommand_held (s : State) : (startCommand s).held = s.held := rfl
@[simp] theorem startCommand_rdata (s : State) : (startCommand s).rdata = s.rdata := rfl
@[simp] theorem startCommand_state (s : State) : (startCommand s).state = s.state := rfl
@[simp] theorem startCommand_busy (s : State) : (startCommand s).busy = true := rfl
@[simp] theorem startCommand_result (s : State) : (startCommand s).result = s.result := rfl
@[simp] theorem startCommand_lastOp (s : State) : (startCommand s).lastOp = s.lastOp := rfl
@[simp] theorem startCommand_locked (s : State) : (startCommand s).locked = s.locked := rfl
@[simp] theorem startCommand_closePending (s : State) : (startCommand s).closePending = s.closePending := rfl
@[simp] theorem startCommand_doneIe (s : State) : (startCommand s).doneIe = s.doneIe := rfl
@[simp] theorem startCommand_intDone (s : State) : (startCommand s).intDone = s.intDone := rfl
@[simp] theorem startCommand_intErr (s : State) : (startCommand s).intErr = s.intErr := rfl
@[simp] theorem startCommand_dw (s : State) : (startCommand s).dw = s.dw := rfl
@[simp] theorem startCommand_cfg (s : State) : (startCommand s).cfg = s.cfg := rfl
@[simp] theorem startCommand_chunksIssued (s : State) : (startCommand s).chunksIssued = s.chunksIssued := rfl
@[simp] theorem startCommand_chunksTotal (s : State) : (startCommand s).chunksTotal = s.chunksTotal := rfl
@[simp] theorem startCommand_csN (s : State) : (startCommand s).csN = s.csN := rfl
@[simp] theorem startCommand_dc (s : State) : (startCommand s).dc = s.dc := rfl
@[simp] theorem startCommand_rstN (s : State) : (startCommand s).rstN = s.rstN := rfl
@[simp] theorem startCommand_sp (s : State) : (startCommand s).sp = .run (opField s.asm.hdr) .begin 0 := rfl
@[simp] theorem startCommand_asm (s : State) : (startCommand s).asm = { s.asm with phase := .none } := rfl
@[simp] theorem startCommand_xfer (s : State) : (startCommand s).xfer = s.xfer := rfl
@[simp] theorem startCommand_delay (s : State) : (startCommand s).delay = s.delay := rfl
@[simp] theorem startCommand_lockReq (s : State) : (startCommand s).lockReq = s.lockReq := rfl
@[simp] theorem startCommand_reply (s : State) : (startCommand s).reply = s.reply := rfl
@[simp] theorem startCommand_pb (s : State) : (startCommand s).pb = s.pb := rfl
@[simp] theorem startCommand_tb (s : State) : (startCommand s).tb = s.tb := rfl
@[simp] theorem startCommand_draw (s : State) : (startCommand s).draw = s.draw := rfl
@[simp] theorem startCommand_trace (s : State) : (startCommand s).trace = s.trace := rfl

/-! ### countPixel -/

@[simp] theorem countPixel_params (s : State) : (countPixel s).params = s.params := rfl
@[simp] theorem countPixel_turns (s : State) : (countPixel s).turns = s.turns := rfl
@[simp] theorem countPixel_held (s : State) : (countPixel s).held = s.held := rfl
@[simp] theorem countPixel_rdata (s : State) : (countPixel s).rdata = s.rdata := rfl
@[simp] theorem countPixel_state (s : State) : (countPixel s).state = s.state := rfl
@[simp] theorem countPixel_busy (s : State) : (countPixel s).busy = s.busy := rfl
@[simp] theorem countPixel_result (s : State) : (countPixel s).result = s.result := rfl
@[simp] theorem countPixel_lastOp (s : State) : (countPixel s).lastOp = s.lastOp := rfl
@[simp] theorem countPixel_locked (s : State) : (countPixel s).locked = s.locked := rfl
@[simp] theorem countPixel_closePending (s : State) : (countPixel s).closePending = s.closePending := rfl
@[simp] theorem countPixel_doneIe (s : State) : (countPixel s).doneIe = s.doneIe := rfl
@[simp] theorem countPixel_intDone (s : State) : (countPixel s).intDone = s.intDone := rfl
@[simp] theorem countPixel_intErr (s : State) : (countPixel s).intErr = s.intErr := rfl
@[simp] theorem countPixel_dw (s : State) : (countPixel s).dw = s.dw := rfl
@[simp] theorem countPixel_cfg (s : State) : (countPixel s).cfg = s.cfg := rfl
@[simp] theorem countPixel_chunksIssued (s : State) : (countPixel s).chunksIssued = s.chunksIssued := rfl
@[simp] theorem countPixel_chunksTotal (s : State) : (countPixel s).chunksTotal = s.chunksTotal := rfl
@[simp] theorem countPixel_csN (s : State) : (countPixel s).csN = s.csN := rfl
@[simp] theorem countPixel_dc (s : State) : (countPixel s).dc = s.dc := rfl
@[simp] theorem countPixel_rstN (s : State) : (countPixel s).rstN = s.rstN := rfl
@[simp] theorem countPixel_sp (s : State) : (countPixel s).sp = s.sp := rfl
@[simp] theorem countPixel_asm (s : State) : (countPixel s).asm = { s.asm with k := s.asm.k + 1 } := rfl
@[simp] theorem countPixel_xfer (s : State) : (countPixel s).xfer = s.xfer := rfl
@[simp] theorem countPixel_delay (s : State) : (countPixel s).delay = s.delay := rfl
@[simp] theorem countPixel_lockReq (s : State) : (countPixel s).lockReq = s.lockReq := rfl
@[simp] theorem countPixel_reply (s : State) : (countPixel s).reply = s.reply := rfl
@[simp] theorem countPixel_pb (s : State) : (countPixel s).pb = s.pb := rfl
@[simp] theorem countPixel_tb (s : State) : (countPixel s).tb = s.tb := rfl
@[simp] theorem countPixel_draw (s : State) : (countPixel s).draw = s.draw := rfl
@[simp] theorem countPixel_trace (s : State) : (countPixel s).trace = s.trace := rfl

/-! ### writeInt -/

@[simp] theorem writeInt_params (w : Word) (s : State) : (writeInt w s).params = s.params := rfl
@[simp] theorem writeInt_turns (w : Word) (s : State) : (writeInt w s).turns = s.turns := rfl
@[simp] theorem writeInt_held (w : Word) (s : State) : (writeInt w s).held = s.held := rfl
@[simp] theorem writeInt_rdata (w : Word) (s : State) : (writeInt w s).rdata = s.rdata := rfl
@[simp] theorem writeInt_state (w : Word) (s : State) : (writeInt w s).state = s.state := rfl
@[simp] theorem writeInt_busy (w : Word) (s : State) : (writeInt w s).busy = s.busy := rfl
@[simp] theorem writeInt_result (w : Word) (s : State) : (writeInt w s).result = s.result := rfl
@[simp] theorem writeInt_lastOp (w : Word) (s : State) : (writeInt w s).lastOp = s.lastOp := rfl
@[simp] theorem writeInt_locked (w : Word) (s : State) : (writeInt w s).locked = s.locked := rfl
@[simp] theorem writeInt_closePending (w : Word) (s : State) : (writeInt w s).closePending = s.closePending := rfl
@[simp] theorem writeInt_doneIe (w : Word) (s : State) : (writeInt w s).doneIe = s.doneIe := rfl
@[simp] theorem writeInt_intDone (w : Word) (s : State) : (writeInt w s).intDone = (s.intDone && !w.getLsbD 0) := rfl
@[simp] theorem writeInt_intErr (w : Word) (s : State) : (writeInt w s).intErr = (s.intErr && !w.getLsbD 1) := rfl
@[simp] theorem writeInt_dw (w : Word) (s : State) : (writeInt w s).dw = s.dw := rfl
@[simp] theorem writeInt_cfg (w : Word) (s : State) : (writeInt w s).cfg = s.cfg := rfl
@[simp] theorem writeInt_chunksIssued (w : Word) (s : State) : (writeInt w s).chunksIssued = s.chunksIssued := rfl
@[simp] theorem writeInt_chunksTotal (w : Word) (s : State) : (writeInt w s).chunksTotal = s.chunksTotal := rfl
@[simp] theorem writeInt_csN (w : Word) (s : State) : (writeInt w s).csN = s.csN := rfl
@[simp] theorem writeInt_dc (w : Word) (s : State) : (writeInt w s).dc = s.dc := rfl
@[simp] theorem writeInt_rstN (w : Word) (s : State) : (writeInt w s).rstN = s.rstN := rfl
@[simp] theorem writeInt_sp (w : Word) (s : State) : (writeInt w s).sp = s.sp := rfl
@[simp] theorem writeInt_asm (w : Word) (s : State) : (writeInt w s).asm = s.asm := rfl
@[simp] theorem writeInt_xfer (w : Word) (s : State) : (writeInt w s).xfer = s.xfer := rfl
@[simp] theorem writeInt_delay (w : Word) (s : State) : (writeInt w s).delay = s.delay := rfl
@[simp] theorem writeInt_lockReq (w : Word) (s : State) : (writeInt w s).lockReq = s.lockReq := rfl
@[simp] theorem writeInt_reply (w : Word) (s : State) : (writeInt w s).reply = s.reply := rfl
@[simp] theorem writeInt_pb (w : Word) (s : State) : (writeInt w s).pb = s.pb := rfl
@[simp] theorem writeInt_tb (w : Word) (s : State) : (writeInt w s).tb = s.tb := rfl
@[simp] theorem writeInt_draw (w : Word) (s : State) : (writeInt w s).draw = s.draw := rfl
@[simp] theorem writeInt_trace (w : Word) (s : State) : (writeInt w s).trace = s.trace := rfl

/-! ### abandon -/

@[simp] theorem abandon_params (s : State) : (abandon s).params = s.params := rfl
@[simp] theorem abandon_turns (s : State) : (abandon s).turns = s.turns := rfl
@[simp] theorem abandon_held (s : State) : (abandon s).held = s.held := rfl
@[simp] theorem abandon_rdata (s : State) : (abandon s).rdata = s.rdata := rfl
@[simp] theorem abandon_state (s : State) : (abandon s).state = .closed := rfl
@[simp] theorem abandon_busy (s : State) : (abandon s).busy = false := rfl
@[simp] theorem abandon_result (s : State) : (abandon s).result = .closedError := rfl
@[simp] theorem abandon_lastOp (s : State) : (abandon s).lastOp = opField s.asm.hdr := rfl
@[simp] theorem abandon_locked (s : State) : (abandon s).locked = false := rfl
@[simp] theorem abandon_closePending (s : State) : (abandon s).closePending = false := rfl
@[simp] theorem abandon_doneIe (s : State) : (abandon s).doneIe = s.doneIe := rfl
@[simp] theorem abandon_intDone (s : State) : (abandon s).intDone = true := rfl
@[simp] theorem abandon_intErr (s : State) : (abandon s).intErr = (s.intErr || true) := rfl
@[simp] theorem abandon_dw (s : State) : (abandon s).dw = s.dw := rfl
@[simp] theorem abandon_cfg (s : State) : (abandon s).cfg = s.cfg := rfl
@[simp] theorem abandon_chunksIssued (s : State) : (abandon s).chunksIssued = s.chunksIssued := rfl
@[simp] theorem abandon_chunksTotal (s : State) : (abandon s).chunksTotal = s.chunksTotal := rfl
@[simp] theorem abandon_csN (s : State) : (abandon s).csN = true := rfl
@[simp] theorem abandon_dc (s : State) : (abandon s).dc = s.dc := rfl
@[simp] theorem abandon_rstN (s : State) : (abandon s).rstN = true := rfl
@[simp] theorem abandon_sp (s : State) : (abandon s).sp = .idle := rfl
@[simp] theorem abandon_asm (s : State) : (abandon s).asm = s.asm := rfl
@[simp] theorem abandon_xfer (s : State) : (abandon s).xfer = s.xfer := rfl
@[simp] theorem abandon_delay (s : State) : (abandon s).delay = none := rfl
@[simp] theorem abandon_reply (s : State) : (abandon s).reply = none := rfl
@[simp] theorem abandon_pb (s : State) : (abandon s).pb = s.pb := rfl
@[simp] theorem abandon_tb (s : State) : (abandon s).tb = s.tb := rfl
@[simp] theorem abandon_draw (s : State) : (abandon s).draw = s.draw := rfl

/-- Abandonment drops the lock request (R303): it is withdrawn, or released with the lock. -/
@[simp] theorem abandon_lockReq (s : State) :
    (abandon s).lockReq = ((s.lockReq && s.locked) && !(s.locked && s.params.sharedBus)) := rfl

/-- Abandonment's events (R303): CS(1), UNLOCK and RST(1), each only if it changes something. -/
@[simp] theorem abandon_trace (s : State) :
    (abandon s).trace = s.trace ++ (if s.csN then [] else [.cs true]) ++
      (if s.locked && s.params.sharedBus then [.unlock] else []) ++ if s.rstN then [] else [.rst true] := rfl

@[simp] theorem moveTo_run (op : Byte) (st st' : SeqStep) (n n' : Nat) :
    (SeqPtr.run op st n).moveTo st' n' = .run op st' n' := rfl

@[simp] theorem moveTo_idle (st : SeqStep) (n : Nat) : SeqPtr.idle.moveTo st n = .idle := rfl

end Sys2Proof.Machine
end

