-- ==== Sys2Proof/Laws/Memory.lean ====
section
/-!
SUPPORT. The laws of memory: reading after writing, and that every memory operation keeps the canonical form
(20_memory R82 to R85).
-/

namespace Sys2Proof.Machine

variable {w : Nat}

/-- The canonical form, cell by cell: every later address is larger. -/
theorem wf_iff_pairwise (m : Memory w) : m.wf = true ↔ m.Pairwise fun a b => a.1 < b.1 := by
  induction m with
  | nil => simp [Memory.wf]
  | cons a m ih =>
    cases m with
    | nil => simp [Memory.wf]
    | cons b m =>
      rw [Memory.wf, Bool.and_eq_true, ih, decide_eq_true_iff, List.pairwise_cons (a := a)]
      refine ⟨fun ⟨hab, hb⟩ => ⟨fun c hc => ?_, hb⟩, fun ⟨ha, hb⟩ => ⟨ha b (by simp), hb⟩⟩
      rcases List.mem_cons.1 hc with rfl | hc
      · exact hab
      · exact Nat.lt_trans hab ((List.pairwise_cons.1 hb).1 c hc)

theorem find?_put_same (m : Memory w) (a : Nat) (v : BitVec w) : (m.put a v).find? a = some v := by
  induction m with
  | nil => simp [Memory.put, Memory.find?]
  | cons c m ih =>
    by_cases h1 : a < c.1
    · simp [Memory.put, Memory.find?, h1]
    · by_cases h2 : a = c.1
      · simp [Memory.put, Memory.find?, h2]
      · have h3 : c.1 ≠ a := fun h => h2 h.symm
        simp [Memory.put, Memory.find?, h1, h2, h3, ih]

theorem find?_put_other (m : Memory w) {a b : Nat} (v : BitVec w) (h : b ≠ a) :
    (m.put a v).find? b = m.find? b := by
  have h' : a ≠ b := fun e => h e.symm
  induction m with
  | nil => simp [Memory.put, Memory.find?, h']
  | cons c m ih =>
    by_cases h1 : a < c.1
    · simp [Memory.put, Memory.find?, h1, h']
    · by_cases h2 : a = c.1
      · subst h2
        simp [Memory.put, Memory.find?, h']
      · simp [Memory.put, Memory.find?, h1, h2, ih]

/-- The cells of a written memory are the written one and old ones. -/
theorem mem_put {m : Memory w} {a : Nat} {v : BitVec w} {c : Nat × BitVec w} (h : c ∈ m.put a v) :
    c = (a, v) ∨ c ∈ m := by
  induction m with
  | nil => simpa [Memory.put] using h
  | cons d m ih =>
    by_cases h1 : a < d.1
    · simpa [Memory.put, h1] using h
    · by_cases h2 : a = d.1
      · simp only [Memory.put, h2, if_false, if_true, lt_irrefl, List.mem_cons] at h ⊢
        tauto
      · simp only [Memory.put, h1, h2, if_false, List.mem_cons] at h ⊢
        rcases h with rfl | h
        · tauto
        · have := ih h
          tauto

/-- Writing keeps the canonical form. -/
theorem put_wf {m : Memory w} (a : Nat) (v : BitVec w) (h : m.wf = true) : (m.put a v).wf = true := by
  rw [wf_iff_pairwise] at h ⊢
  induction m with
  | nil => simp [Memory.put]
  | cons c m ih =>
    obtain ⟨hc, hm⟩ := List.pairwise_cons.1 h
    by_cases h1 : a < c.1
    · simp only [Memory.put, h1, if_true, List.pairwise_cons]
      exact ⟨fun d hd => by
        rcases List.mem_cons.1 hd with rfl | hd
        · exact h1
        · exact Nat.lt_trans h1 (hc d hd), hc, hm⟩
    · by_cases h2 : a = c.1
      · simp only [Memory.put, h2, if_false, if_true, lt_irrefl, List.pairwise_cons]
        exact ⟨hc, hm⟩
      · simp only [Memory.put, h1, h2, if_false, List.pairwise_cons]
        refine ⟨fun d hd => ?_, ih hm⟩
        rcases mem_put hd with rfl | hd
        · show c.1 < a
          omega
        · exact hc d hd

/-- Every cell of a written memory lies below a bound that holds of the old cells and of the written address. -/
theorem put_below {m : Memory w} {a bound : Nat} (v : BitVec w) (ha : a < bound) (h : ∀ c ∈ m, c.1 < bound) :
    ∀ c ∈ m.put a v, c.1 < bound := by
  intro c hc
  rcases mem_put hc with rfl | hc
  · exact ha
  · exact h c hc

/-- Staging leaves the bytes below its first index alone. -/
theorem find?_stageFrom_below (bytes : List Byte) (tb : Memory 8) {i a : Nat} (h : a < i) :
    (stageFrom i bytes tb).find? a = tb.find? a := by
  induction bytes generalizing i tb with
  | nil => rfl
  | cons b rest ih => rw [stageFrom, ih _ (by omega), find?_put_other _ _ (by omega)]

/-- Staging leaves the bytes past its last index alone (R85). -/
theorem find?_stageFrom_above (bytes : List Byte) (tb : Memory 8) {i a : Nat} (h : i + bytes.length ≤ a) :
    (stageFrom i bytes tb).find? a = tb.find? a := by
  induction bytes generalizing i tb with
  | nil => rfl
  | cons b rest ih =>
    rw [List.length_cons] at h
    rw [stageFrom, ih _ (by omega), find?_put_other _ _ (by omega)]

/-- Staging puts byte `j` of the list at index `i + j` (R84, R170). -/
theorem find?_stageFrom_inside (bytes : List Byte) (tb : Memory 8) {i j : Nat} (h : j < bytes.length) :
    (stageFrom i bytes tb).find? (i + j) = some bytes[j] := by
  induction bytes generalizing i j tb with
  | nil => simp at h
  | cons b rest ih =>
    rw [stageFrom]
    cases j with
    | zero => rw [find?_stageFrom_below _ _ (by omega)]; simp [find?_put_same]
    | succ j =>
      have := ih (tb.put i b) (i := i + 1) (j := j) (by simpa using h)
      rw [show i + (j + 1) = i + 1 + j by omega, this]
      simp

/-- Staging keeps the canonical form. -/
theorem stageFrom_wf (bytes : List Byte) {tb : Memory 8} (i : Nat) (h : tb.wf = true) :
    (stageFrom i bytes tb).wf = true := by
  induction bytes generalizing i tb with
  | nil => exact h
  | cons b rest ih => exact ih _ (put_wf _ _ h)

/-- Staging stays below a bound on its last index and on the old cells. -/
theorem stageFrom_below (bytes : List Byte) {tb : Memory 8} {i bound : Nat} (hi : i + bytes.length ≤ bound)
    (h : ∀ c ∈ tb, c.1 < bound) : ∀ c ∈ stageFrom i bytes tb, c.1 < bound := by
  induction bytes generalizing i tb with
  | nil => exact h
  | cons b rest ih =>
    rw [List.length_cons] at hi
    exact ih (by omega) (put_below _ (by omega) h)

/-- CLEAR's fill is in canonical form (R256). -/
theorem fillPixels_wf (v : Half) (s : State) : (fillPixels v s).pb.wf = true := by
  rw [wf_iff_pairwise, fillPixels_pb, List.pairwise_map]
  exact List.pairwise_lt_range

/-- CLEAR's fill lies inside PB (R82). -/
theorem fillPixels_below (v : Half) (s : State) : ∀ c ∈ (fillPixels v s).pb, c.1 < pbSize s.params := by
  intro c hc
  rw [fillPixels_pb, List.mem_map] at hc
  obtain ⟨i, hi, rfl⟩ := hc
  exact List.mem_range.1 hi

/-- What an address of a mapped range holds. -/
theorem find?_map_range (v : BitVec w) (n a : Nat) :
    Memory.find? ((List.range n).map fun i => (i, v)) a = if a < n then some v else none := by
  have key : ∀ l : List Nat, Memory.find? (l.map fun i => (i, v)) a = if a ∈ l then some v else none := by
    intro l
    induction l with
    | nil => rfl
    | cons b l ih =>
      by_cases h : b = a
      · simp [Memory.find?, h]
      · have : a ≠ b := fun e => h e.symm
        simp [Memory.find?, h, ih, this]
  simpa using key (List.range n)

/-- After a fill every pixel of PB reads the fill value (R256, R258). -/
theorem readPixel_fillPixels (v : Half) (s : State) {i : Nat} (h : i < pbSize s.params) :
    readPixel (fillPixels v s) i = v := by
  simp [readPixel, find?_map_range, h]

/-- The memories right after reset are in canonical form. -/
theorem reset_memory_wf : State.reset.pb.wf = true ∧ State.reset.tb.wf = true := ⟨rfl, rfl⟩

end Sys2Proof.Machine
end

