-- ==== Sys2Proof/Laws/Ops.lean ====
section
/-!
SUPPORT. For each shared operation, once, everything it can do: later proofs cite these instead of unfolding it.
-/

namespace Sys2Proof.Machine

/-! ## Sequencing outcomes -/

@[simp] theorem andThen_next (s : State) (f : State → Out) : andThen (.next s) f = f s := rfl
@[simp] theorem andThen_fault (r : Fault) (f : State → Out) : andThen (.fault r) f = .fault r := rfl
@[simp] theorem andThen_refused (r : Refusal) (f : State → Out) : andThen (.refused r) f = .refused r := rfl

theorem andThen_eq_next {o : Out} {f : State → Out} {t : State} :
    andThen o f = .next t ↔ ∃ s, o = .next s ∧ f s = .next t := by
  cases o <;> simp

/-! ## Lines, memory -/

theorem lineOp_ready (line : State → State) {s : State} (h : s.xfer.pending = false) :
    lineOp line s = .next (line s) := by simp [lineOp, h]

theorem lineOp_eq_next {line : State → State} {s t : State} :
    lineOp line s = .next t ↔ s.xfer.pending = false ∧ t = line s := by
  by_cases h : s.xfer.pending = true <;> simp [lineOp, h, eq_comm]

theorem storePixel_eq_next {i : Nat} {v : Half} {s t : State} :
    storePixel i v s = .next t ↔ i < pbSize s.params ∧ t = { s with pb := s.pb.put i v } := by
  by_cases h : i < pbSize s.params <;> simp [storePixel, h, eq_comm]

/-- Reading a pixel after storing one (R18). -/
theorem readPixel_storePixel {i : Nat} {v : Half} {s t : State} (h : storePixel i v s = .next t) (a : Nat) :
    readPixel t a = if a = i then v else readPixel s a := by
  obtain ⟨-, rfl⟩ := storePixel_eq_next.1 h
  by_cases ha : a = i
  · simp [readPixel, ha, find?_put_same]
  · simp [readPixel, ha, find?_put_other]

/-! ## Transfer -/

theorem requestTransfer_eq_next {bytes : List Byte} {s t : State} :
    requestTransfer bytes s = .next t ↔
      (s.xfer.pending = false ∧ 0 < bytes.length ∧ bytes.length ≤ s.params.tbufBytes) ∧
        t = { s with tb := stageFrom 0 bytes s.tb, xfer := { pending := true, len := bytes.length } } := by
  unfold requestTransfer
  split_ifs with h1 h2
  · simp [h1]
  · constructor
    · intro h
      cases h
    · rintro ⟨⟨-, h3, h4⟩, -⟩
      omega
  · have : s.xfer.pending = false := by simpa using h1
    constructor
    · intro h
      cases h
      exact ⟨⟨this, by omega, by omega⟩, rfl⟩
    · rintro ⟨-, rfl⟩
      rfl

/-- What TRANSPORT sends for a request is what was staged for it (R84, R85). -/
theorem sentBytes_requestTransfer {bytes : List Byte} {s t : State} (h : requestTransfer bytes s = .next t) :
    sentBytes t = bytes := by
  obtain ⟨-, rfl⟩ := requestTransfer_eq_next.1 h
  apply List.ext_getElem
  · simp [sentBytes]
  · intro j h1 h2
    have := find?_stageFrom_inside bytes s.tb (i := 0) h2
    rw [Nat.zero_add] at this
    simp [sentBytes, readTb, this]

theorem readTb_requestTransfer {bytes : List Byte} {s t : State} (h : requestTransfer bytes s = .next t) {a : Nat}
    (ha : bytes.length ≤ a) : readTb t a = readTb s a := by
  obtain ⟨-, rfl⟩ := requestTransfer_eq_next.1 h
  simp only [readTb]
  rw [find?_stageFrom_above bytes s.tb (i := 0) (a := a) (by omega)]

theorem transferStep_none {bytes : List Byte} {onOk : State → Out} {s : State} (h : s.reply = none) :
    transferStep bytes onOk s = requestTransfer bytes s := by simp [transferStep, h]

theorem transferStep_ok {bytes : List Byte} {onOk : State → Out} {s : State} (h : s.reply = some .ok) :
    transferStep bytes onOk s = onOk { s with reply := none } := by simp [transferStep, h]

theorem transferStep_err {bytes : List Byte} {onOk : State → Out} {s : State} (h : s.reply = some .err) :
    transferStep bytes onOk s = .next (goto .abortDeselect 0 { s with reply := none }) := by simp [transferStep, h]

/-- The three things a transfer step can do. -/
theorem transferStep_eq_next {bytes : List Byte} {onOk : State → Out} {s t : State}
    (h : transferStep bytes onOk s = .next t) :
    (s.reply = none ∧ requestTransfer bytes s = .next t) ∨
    (s.reply = some .ok ∧ onOk { s with reply := none } = .next t) ∨
    (s.reply = some .err ∧ t = goto .abortDeselect 0 { s with reply := none }) := by
  unfold transferStep at h
  split at h
  · exact .inl ⟨‹_›, h⟩
  · exact .inr (.inl ⟨‹_›, h⟩)
  · exact .inr (.inr ⟨‹_›, by cases h; rfl⟩)

/-! ## Delay and lock -/

theorem delayStep_zero (after : State → Out) (s : State) : delayStep 0 after s = after { s with reply := none } := by
  simp [delayStep]

/-- The three things a delay step can do. -/
theorem delayStep_eq_next {ms : Half} {after : State → Out} {s t : State} (h : delayStep ms after s = .next t) :
    (ms = 0 ∧ after { s with reply := none } = .next t) ∨
    (ms ≠ 0 ∧ s.reply = none ∧ t = requestDelay ms s) ∨
    (ms ≠ 0 ∧ s.reply ≠ none ∧ after { s with reply := none } = .next t) := by
  unfold delayStep at h
  split_ifs at h with h0
  · exact .inl ⟨h0, h⟩
  · split at h
    · exact .inr (.inl ⟨h0, ‹_›, by cases h; rfl⟩)
    · exact .inr (.inr ⟨h0, by simp [*], h⟩)

theorem enterDelay_eq_next {ms : Half} {hold : SeqStep} {n : Nat} {after : State → Out} {s t : State}
    (h : enterDelay ms hold n after s = .next t) :
    (ms = 0 ∧ after s = .next t) ∨ (ms ≠ 0 ∧ t = goto hold n s) := by
  unfold enterDelay at h
  split_ifs at h with h0
  · exact .inl ⟨h0, h⟩
  · exact .inr ⟨h0, by cases h; rfl⟩

/-- The two things an acquire step can do. -/
theorem acquireStep_eq_next {after : State → Out} {s t : State} (h : acquireStep after s = .next t) :
    (s.params.sharedBus = true ∧ s.reply = none ∧ t = { s with lockReq := true }) ∨
    ((s.params.sharedBus = false ∨ s.reply ≠ none) ∧ after (takeLock { s with reply := none }) = .next t) := by
  unfold acquireStep at h
  split_ifs at h with h0
  · split at h
    · exact .inl ⟨h0, ‹_›, by cases h; rfl⟩
    · exact .inr ⟨.inr (by simp [*]), h⟩
  · exact .inr ⟨.inl (by simpa using h0), h⟩

/-! ## Checks and completion -/

theorem checked_ok {i : Instr} {body : State → Out} {s : State} (h : check i s = .ok) :
    checked i body s = body s := by simp [checked, h]

theorem checked_rejected {i : Instr} {body : State → Out} {s : State} (h : check i s ≠ .ok) :
    checked i body s = .next (complete (check i s) s) := by simp [checked, h]

theorem checked_eq_next {i : Instr} {body : State → Out} {s t : State} (h : checked i body s = .next t) :
    (check i s = .ok ∧ body s = .next t) ∨ (check i s ≠ .ok ∧ t = complete (check i s) s) := by
  unfold checked at h
  split_ifs at h with h0
  · exact .inl ⟨h0, h⟩
  · exact .inr ⟨h0, by cases h; rfl⟩

/-- A check that passes found the command in a state that allows it and its operands in the panel (R325). -/
theorem check_eq_ok {i : Instr} {s : State} (h : check i s = .ok) :
    s.state ≠ .closed ∧ validIn i s.state = true ∧ inBounds s.params i = true := by
  unfold check at h
  split_ifs at h with h1 h2 h3 h4
  · exact ⟨h1, by simpa using h3, by simpa using h4⟩

/-- An image is accepted when its origin is in the panel and it has no pixels or ends in the panel (R248, R254). -/
theorem imageInPanel_iff (p : Params) (x y w h : Nat) : imageInPanel p x y w h = true ↔
    (x < p.panelW ∧ y < p.panelH ∧ (w * h = 0 ∨ x + w ≤ p.panelW ∧ y + h ≤ p.panelH)) := by
  simp only [imageInPanel, Bool.and_eq_true, Bool.or_eq_true, decide_eq_true_eq, and_assoc]

/-- An accepted image with pixels lies in the panel with all of them (R248). -/
theorem imageInPanel_pixels {p : Params} {x y w h : Nat} (hi : imageInPanel p x y w h = true) (hp : 0 < w * h) :
    x + w ≤ p.panelW ∧ y + h ≤ p.panelH := by
  obtain ⟨-, -, h0 | h1⟩ := (imageInPanel_iff p x y w h).1 hi
  · omega
  · exact h1

/-- In CLOSED every legal command's check gives CLOSED_ERROR (R301, R325). -/
theorem check_closed {i : Instr} {s : State} (h : s.state = .closed) : check i s = .closedError := by
  simp [check, h]

/-- A command at its first step (R34). -/
theorem atBegin_begin {body : State → Out} {s : State} {op : Byte} {n : Nat} (h : s.sp = .run op .begin n) :
    atBegin body s = body s := by simp [atBegin, h]

theorem atBegin_eq_next {body : State → Out} {s t : State} (h : atBegin body s = .next t) :
    (∃ op n, s.sp = .run op .begin n) ∧ body s = .next t := by
  unfold atBegin at h
  split at h
  · exact ⟨⟨_, _, ‹_›⟩, h⟩
  · cases h

/-! ## The window -/

theorem minHalf_toNat (a b : Half) : (minHalf a b).toNat = min a.toNat b.toNat := by
  unfold minHalf
  split_ifs <;> omega

theorem maxHalf_toNat (a b : Half) : (maxHalf a b).toNat = max a.toNat b.toNat := by
  unfold maxHalf
  split_ifs <;> omega

theorem inPanel_iff (dw : Window) (p : Params) : dw.inPanel p = true ↔
    (dw.x0.toNat ≤ dw.x1.toNat ∧ dw.x1.toNat < p.panelW ∧ dw.y0.toNat ≤ dw.y1.toNat ∧ dw.y1.toNat < p.panelH) := by
  simp [Window.inPanel, and_assoc]

/-- Extending by a rectangle of the panel keeps the window in the panel (R240). -/
theorem extend_inPanel {dw : Window} {p : Params} {ax ay bx by' : Half} (hdw : dw.valid = true → dw.inPanel p = true)
    (hx : ax.toNat ≤ bx.toNat) (hX : bx.toNat < p.panelW) (hy : ay.toNat ≤ by'.toNat) (hY : by'.toNat < p.panelH) :
    (dw.extend ax ay bx by').inPanel p = true := by
  unfold Window.extend
  split_ifs with hv
  · have := (inPanel_iff _ _).1 (hdw hv)
    rw [inPanel_iff]
    simp only [minHalf_toNat, maxHalf_toNat]
    omega
  · rw [inPanel_iff]
    exact ⟨hx, hX, hy, hY⟩

@[simp] theorem extend_valid (dw : Window) (ax ay bx by' : Half) : (dw.extend ax ay bx by').valid = true := by
  unfold Window.extend
  split_ifs <;> rfl

end Sys2Proof.Machine
end

