-- ==== Sys2Proof/Laws/Decode.lean ====
section
/-!
SUPPORT. What the decoder's answers say of the words it read (30_encoding R121 to R130).
-/

namespace Sys2Proof

/-- A decoded command's opcode is the header's (R121, R129). -/
theorem decode_ok_opcode {hdr : Word} {ws rest : List Word} {i : Instr} (h : decode (hdr :: ws) = .ok (i, rest)) :
    i.opcode = opField hdr := by
  have key : ∀ n : Nat, (opField hdr).toNat = n → n < 256 → (BitVec.ofNat 8 n) = opField hdr := by
    intro n hn _
    apply BitVec.eq_of_toNat_eq
    simp [hn]
    omega
  simp only [decode] at h
  split_ifs at h
  simp only [decodeOp] at h
  split at h
  all_goals rename_i hop
  all_goals first
    | (cases h; done)
    | (cases h; have e := key _ hop (by decide); exact e)
    | (split at h <;> first
        | (cases h; done)
        | (cases h; have e := key _ hop (by decide); exact e))

/-- A missing operand means fewer words than the opcode asks for (R125). -/
theorem decode_missingOperand {hdr : Word} {ws : List Word} {op : Byte}
    (h : decode (hdr :: ws) = .error (.missingOperand op)) : ws.length < operandWords (opField hdr) := by
  simp only [decode] at h
  split_ifs at h
  simp only [decodeOp] at h
  split at h
  all_goals first
    | cases h
    | (rename_i hop
       split at h
       · cases h
       · rename_i hws
         rw [operandWords, hop]
         rcases ws with _ | ⟨a, _ | ⟨b, ws⟩⟩
         all_goals first
           | (simp; done)
           | exact absurd rfl (hws _ _)
           | exact absurd rfl (hws _ _ _))

theorem decode_noHeader {hdr : Word} {ws : List Word} : decode (hdr :: ws) ≠ .error .noHeader := by
  intro h
  simp only [decode] at h
  split_ifs at h
  simp only [decodeOp] at h
  split at h
  all_goals first
    | cases h
    | (split at h <;> cases h)

/-- The fields of a decoded DRAW_IMAGE are those of its operand words (R122, R123). -/
theorem decode_drawImage {hdr : Word} {ws rest : List Word} {x y w h : Half}
    (hd : decode (hdr :: ws) = .ok (.drawImage x y w h, rest)) :
    ∃ xy wh, ws = xy :: wh :: rest ∧ x = loHalf xy ∧ y = hiHalf xy ∧ w = loHalf wh ∧ h = hiHalf wh := by
  simp only [decode] at hd
  split_ifs at hd
  simp only [decodeOp] at hd
  split at hd
  all_goals first
    | cases hd
    | (split at hd
       · cases hd <;> exact ⟨_, _, rfl, rfl, rfl, rfl, rfl⟩
       · cases hd)

/-- The opcodes of the map (R129). -/
theorem opcode_cases (i : Instr) : 1 ≤ i.opcode.toNat ∧ i.opcode.toNat ≤ 8 := by
  cases i <;> simp [Instr.opcode]

end Sys2Proof
end

