-- ==== Sys2Proof/Laws/Assembler.lean ====
section
/-!
SUPPORT. What the assembler's operations can do (30_encoding R125, R126; 42_framebuffer R247, R252).
-/

namespace Sys2Proof.Machine

/-- The opcodes by their number of operand words (R125). -/
theorem operandWords_cases (b : Byte) :
    (operandWords b = 0 ∧ b ≠ 2 ∧ b ≠ 3) ∨ (operandWords b = 1 ∧ b = 2) ∨ (operandWords b = 2 ∧ b = 3) := by
  unfold operandWords
  split
  · exact .inr (.inl ⟨rfl, BitVec.eq_of_toNat_eq ‹_›⟩)
  · exact .inr (.inr ⟨rfl, BitVec.eq_of_toNat_eq ‹_›⟩)
  · rename_i h2 h3
    exact .inl ⟨rfl, fun h => h2 (by rw [h]; rfl), fun h => h3 (by rw [h]; rfl)⟩

/-- A verdict OK is a decoded command whose check passes (R325). -/
theorem verdictOf_ok {ws : List Word} {s : State} (h : verdictOf ws s = .ok) :
    ∃ i rest, decode ws = .ok (i, rest) ∧ check i s = .ok := by
  unfold verdictOf at h
  split at h
  · exact ⟨_, _, ‹_›, h⟩
  · split_ifs at h

/-- A pixel of the panel has an index inside PB (R82). -/
theorem pixelIndex_lt {p : Params} {x y : Nat} (hx : x < p.panelW) (hy : y < p.panelH) : pixelIndex p x y < pbSize p :=
  calc y * p.panelW + x < y * p.panelW + p.panelW := by omega
    _ = (y + 1) * p.panelW := (Nat.succ_mul _ _).symm
    _ ≤ p.panelH * p.panelW := Nat.mul_le_mul_right _ hy
    _ = p.panelW * p.panelH := Nat.mul_comm _ _

/-- The three things one pixel of a data word can do (R252). -/
theorem drawPixel_eq_next {p : Half} {s t : State} (h : drawPixel p s = .next t) :
    (imageW s * imageH s ≤ s.asm.k ∧ t = s) ∨
    (s.asm.k < imageW s * imageH s ∧ s.asm.verdict ≠ .ok ∧ t = countPixel s) ∨
    (s.asm.k < imageW s * imageH s ∧ s.asm.verdict = .ok ∧
      ∃ u, storePixel (imagePixelIndex s s.asm.k) p s = .next u ∧ t = countPixel u) := by
  unfold drawPixel at h
  split_ifs at h with h1 h2
  · obtain ⟨u, hu, ht⟩ := andThen_eq_next.1 h
    exact .inr (.inr ⟨h1, h2, u, hu, by cases ht; rfl⟩)
  · exact .inr (.inl ⟨h1, h2, by cases h; rfl⟩)
  · exact .inl ⟨by omega, by cases h; rfl⟩

/-- A data word's two pixels, one after the other (R252). -/
theorem drawData_eq_next {w : Word} {s t : State} (h : drawData w s = .next t) :
    ∃ u, drawPixel (loHalf w) s = .next u ∧ drawPixel (hiHalf w) u = .next t := andThen_eq_next.1 h

/-- The two things a data word can do (R126). -/
theorem acceptData_eq_next {w : Word} {s t : State} (h : acceptData w s = .next t) :
    ∃ u, drawData w s = .next u ∧
      t = if u.asm.left - 1 = 0 then startCommand { u with asm := { u.asm with left := u.asm.left - 1 } }
        else { u with asm := { u.asm with left := u.asm.left - 1 } } := by
  obtain ⟨u, hu, ht⟩ := andThen_eq_next.1 h
  exact ⟨u, hu, by cases ht; rfl⟩

/-- `accept` by phase (R126). -/
theorem accept_eq_next {w : Word} {s t : State} (h : accept w s = .next t) :
    (s.asm.phase = .none ∧ t = acceptHeader w s) ∨ (s.asm.phase = .oper ∧ t = acceptOperand w s) ∨
    (s.asm.phase = .data ∧ acceptData w s = .next t) := by
  unfold accept at h
  split at h
  · exact .inl ⟨‹_›, by cases h; rfl⟩
  · exact .inr (.inl ⟨‹_›, by cases h; rfl⟩)
  · exact .inr (.inr ⟨‹_›, h⟩)

end Sys2Proof.Machine
end

