-- ==== Sys2Proof/Laws/Driver.lean ====
section
/-!
SUPPORT. What each shared piece of the driver commands can do (41_command_encoder, 43_driver_ops), and the sizes of the
chunk plan.
-/

namespace Sys2Proof.Machine

/-! ## Pieces of a frame -/

/-- The things a group's step can do (R180): its two line operations, its two requests, and what follows their answers. -/
theorem groupStep_eq_next {g : Group} {m : GroupStep} {n : Nat} {cmd : Byte} {params : List Byte} {onOk : State → Out}
    {s t : State} (h : groupStep g m n cmd params onOk s = .next t) :
    (m = .cmdMode ∧ s.xfer.pending = false ∧ t = goto (.group g .cmdByte) n (cmdModeLine s)) ∨
    (m = .dataMode ∧ s.xfer.pending = false ∧ t = goto (.group g .params) n (dataModeLine s)) ∨
    (m = .cmdByte ∧ s.reply = none ∧ requestTransfer [cmd] s = .next t) ∨
    (m = .params ∧ s.reply = none ∧ requestTransfer params s = .next t) ∨
    (m = .cmdByte ∧ s.reply = some .ok ∧ params ≠ [] ∧ t = goto (.group g .dataMode) n { s with reply := none }) ∨
    ((m = .cmdByte ∧ params = [] ∨ m = .params) ∧ s.reply = some .ok ∧ onOk { s with reply := none } = .next t) ∨
    ((m = .cmdByte ∨ m = .params) ∧ s.reply = some .err ∧ t = goto .abortDeselect 0 { s with reply := none }) := by
  cases m with
  | cmdMode =>
    simp only [groupStep] at h
    obtain ⟨h1, h2⟩ := lineOp_eq_next.1 h
    exact .inl ⟨rfl, h1, h2⟩
  | dataMode =>
    simp only [groupStep] at h
    obtain ⟨h1, h2⟩ := lineOp_eq_next.1 h
    exact .inr (.inl ⟨rfl, h1, h2⟩)
  | cmdByte =>
    simp only [groupStep] at h
    rcases transferStep_eq_next h with ⟨h1, h2⟩ | ⟨h1, h2⟩ | ⟨h1, h2⟩
    · exact .inr (.inr (.inl ⟨rfl, h1, h2⟩))
    · split_ifs at h2 with hp
      · exact .inr (.inr (.inr (.inr (.inr (.inl ⟨.inl ⟨rfl, hp⟩, h1, h2⟩)))))
      · cases h2
        exact .inr (.inr (.inr (.inr (.inl ⟨rfl, h1, hp, rfl⟩))))
    · exact .inr (.inr (.inr (.inr (.inr (.inr ⟨.inl rfl, h1, h2⟩)))))
  | params =>
    simp only [groupStep] at h
    rcases transferStep_eq_next h with ⟨h1, h2⟩ | ⟨h1, h2⟩ | ⟨h1, h2⟩
    · exact .inr (.inr (.inr (.inl ⟨rfl, h1, h2⟩)))
    · exact .inr (.inr (.inr (.inr (.inr (.inl ⟨.inr rfl, h1, h2⟩)))))
    · exact .inr (.inr (.inr (.inr (.inr (.inr ⟨.inr rfl, h1, h2⟩)))))
  | settle => cases h

theorem deselectStep_eq_next {st : SeqStep} {s t : State} (h : deselectStep st s = .next t) :
    s.xfer.pending = false ∧ t = goto st 0 (deselectLine s) := lineOp_eq_next.1 h

theorem releaseStep_eq (after : State → Out) (s : State) : releaseStep after s = after (releaseLock s) := rfl

theorem finish_eq_next {st : DriverState} {c : Code} {s t : State} (h : finish st c s = .next t) :
    t = complete c { s with state := st } := by
  cases h
  rfl

/-- The two things that can follow an entry of the init table (R204). -/
theorem initEntryAt_eq_next {n : Nat} {s t : State} (h : initEntryAt n s = .next t) :
    (n < s.params.initTable.length ∧ t = goto (.group .initEntry .cmdMode) n s) ∨
    (s.params.initTable.length ≤ n ∧ t = goto .deselect 0 s) := by
  unfold initEntryAt at h
  split_ifs at h with hn
  · exact .inl ⟨hn, by cases h; rfl⟩
  · exact .inr ⟨by omega, by cases h; rfl⟩

/-- The two things that can follow a chunk (R213). -/
theorem flushChunkAt_eq_next {k : Nat} {s t : State} (h : flushChunkAt k s = .next t) :
    (k < chunkCount s ∧ t = goto .chunk k s) ∨ (chunkCount s ≤ k ∧ t = goto .deselect 0 s) := by
  unfold flushChunkAt at h
  split_ifs at h with hk
  · exact .inl ⟨hk, by cases h; rfl⟩
  · exact .inr ⟨by omega, by cases h; rfl⟩

/-- The three things a chunk's step can do (R213, R215). -/
theorem chunkStep_eq_next {k : Nat} {s t : State} (h : chunkStep k s = .next t) :
    s.dw.inPanel s.params = true ∧
    ((s.reply = none ∧ requestTransfer (chunkBytes s k) { s with chunksIssued := sat16 (k + 1) } = .next t) ∨
     (s.reply = some .ok ∧ flushChunkAt (k + 1) { s with reply := none } = .next t) ∨
     (s.reply = some .err ∧ t = goto .abortDeselect 0 { s with reply := none })) := by
  unfold chunkStep at h
  split_ifs at h with hp
  refine ⟨hp, ?_⟩
  split at h
  · exact .inl ⟨‹_›, h⟩
  · rename_i a hr
    rcases transferStep_eq_next h with ⟨h1, -⟩ | ⟨h1, h2⟩ | ⟨h1, h2⟩
    · rw [hr] at h1
      cases h1
    · exact .inr (.inl ⟨h1, h2⟩)
    · exact .inr (.inr ⟨h1, h2⟩)

/-! ## The chunk plan (R209, R212) -/

theorem ceilDiv_pos {a b : Nat} (ha : 0 < a) (hb : 0 < b) : 0 < ceilDiv a b :=
  Nat.div_pos (by omega) hb

theorem mul_lt_of_lt_ceilDiv {k n m : Nat} (hm : 0 < m) (h : k < ceilDiv n m) : k * m < n := by
  have := (Nat.le_div_iff_mul_le hm).1 (Nat.succ_le_of_lt h)
  rw [Nat.succ_mul] at this
  omega

theorem maxChunk_bounds {p : Params} (h : p.wellFormed = true) :
    2 ≤ p.maxChunkBytes ∧ p.maxChunkBytes ≤ p.tbufBytes ∧ p.maxChunkBytes % 2 = 0 ∧ 4 ≤ p.tbufBytes := by
  simp [Params.wellFormed] at h
  omega

theorem streamLength_pos (dw : Window) : 0 < streamLength dw := by
  simp [streamLength, Window.width, Window.height]

theorem chunkCount_pos {s : State} (h : s.params.wellFormed = true) : 0 < chunkCount s :=
  ceilDiv_pos (streamLength_pos _) (by have := maxChunk_bounds h; omega)

theorem chunkBytes_length (s : State) (k : Nat) : (chunkBytes s k).length =
    min ((k + 1) * s.params.maxChunkBytes) (streamLength s.dw) - k * s.params.maxChunkBytes := by
  simp [chunkBytes]

/-- Every chunk has at least one byte and fits the transfer buffer (R7, R212). -/
theorem chunkBytes_fit {s : State} {k : Nat} (hp : s.params.wellFormed = true) (h : k < chunkCount s) :
    0 < (chunkBytes s k).length ∧ (chunkBytes s k).length ≤ s.params.tbufBytes := by
  have h2 := maxChunk_bounds hp
  have := mul_lt_of_lt_ceilDiv (by omega) h
  rw [chunkBytes_length, Nat.succ_mul]
  omega

/-- The chunk plan depends on the window and the parameters only. -/
theorem chunkCount_congr {s t : State} (hd : t.dw = s.dw) (hp : t.params = s.params) : chunkCount t = chunkCount s := by
  simp [chunkCount, hd, hp]

end Sys2Proof.Machine
end

