-- ==== Sys2Proof/Laws/Engine.lean ====
section
/-!
SUPPORT. What the host port and the agents' moves can do (20_memory R87 to R90, 43_driver_ops R270, R302, R303), and how a wire
trace is read piece by piece.
-/

namespace Sys2Proof.Machine

/-! ## Host accesses -/

/-- An access that is not refused is a naturally aligned 32-bit one of the block (R87, R88). -/
theorem guardAccess_eq_next {addr width : Nat} {body : Nat → Out} {s t : State}
    (h : guardAccess addr width body s = .next t) :
    inBlock s.params addr = true ∧ definedAccess s.params addr width = true ∧ body (addr - s.params.regBase) = .next t := by
  unfold guardAccess at h
  split_ifs at h with h1 h2
  exact ⟨h1, h2, h⟩

/-- The four things a store to a register can do (R31). -/
theorem writeReg_eq_next {off : Nat} {w : Word} {s t : State} (h : writeReg off w s = .next t) :
    (off = 0x00 ∧ writeCmd w s = .next t) ∨ (off = 0x08 ∧ t = writeCtrl w s) ∨ (off = 0x0C ∧ t = writeInt w s) ∨
    (off ≠ 0x00 ∧ off ≠ 0x08 ∧ off ≠ 0x0C ∧ t = s) := by
  unfold writeReg at h
  split at h
  · exact .inl ⟨rfl, h⟩
  · exact .inr (.inl ⟨rfl, by cases h; rfl⟩)
  · exact .inr (.inr (.inl ⟨rfl, by cases h; rfl⟩))
  · exact .inr (.inr (.inr ⟨‹_›, ‹_›, ‹_›, by cases h; rfl⟩))

/-- A store to CMD is accepted or held (R32, R367). -/
theorem writeCmd_eq_next {w : Word} {s t : State} (h : writeCmd w s = .next t) :
    (s.busy = false ∧ accept w s = .next t) ∨ (s.busy = true ∧ t = { s with held := some w }) := by
  unfold writeCmd at h
  split_ifs at h with hc
  · exact .inl ⟨by simpa [cmdReady] using hc, h⟩
  · exact .inr ⟨by simpa [cmdReady] using hc, by cases h; rfl⟩

/-- The two things the HOST's step can do: nothing while its CMD write is held, or the access (R20, R32, R39). -/
theorem hostStep_eq_next {a : Access} {s t : State} (h : hostStep a s = .next t) :
    (s.held ≠ none ∧ isCtrlStore s.params a = false ∧ t = s) ∨
    ((s.held = none ∨ isCtrlStore s.params a = true) ∧ hostAccess a s = .next t) := by
  unfold hostStep at h
  split_ifs at h with hc
  · simp only [Bool.and_eq_true, Bool.not_eq_true', Option.isSome_iff_ne_none] at hc
    exact .inl ⟨hc.1, hc.2, by cases h; rfl⟩
  · refine .inr ⟨?_, h⟩
    by_cases hn : s.held = none
    · exact .inl hn
    · exact .inr (by simpa [Option.isSome_iff_ne_none, hn] using hc)

/-- The five things a close request can do (R302, R303). -/
theorem closeRequest_cases (s : State) :
    (s.state = .closed ∧ closeRequest s = s) ∨
    (s.busy = true ∧ inTimedHold s = true ∧ s.xfer.pending = false ∧
      closeRequest s = abandon { s with closePending := true }) ∨
    (s.busy = true ∧ (inTimedHold s = false ∨ s.xfer.pending = true) ∧
      closeRequest s = { s with closePending := true }) ∨
    (s.busy = false ∧ s.asm.phase = .none ∧ closeRequest s = { s with state := .closed }) ∨
    (s.busy = false ∧ s.asm.phase ≠ .none ∧
      closeRequest s = complete .closedError { s with asm := { s.asm with phase := .none }, state := .closed }) := by
  unfold closeRequest
  split_ifs with h1 h2 h3
  · exact .inl ⟨h1, rfl⟩
  · dsimp only
    split_ifs with h4
    · exact .inr (.inl ⟨h2, h4.1, h4.2, rfl⟩)
    · refine .inr (.inr (.inl ⟨h2, ?_, rfl⟩))
      by_cases h5 : inTimedHold s = true
      · exact .inr (by_contra fun h6 => h4 ⟨h5, by simpa using h6⟩)
      · exact .inl (by simpa using h5)
  · exact .inr (.inr (.inr (.inl ⟨by simpa using h2, h3, rfl⟩)))
  · exact .inr (.inr (.inr (.inr ⟨by simpa using h2, h3, rfl⟩)))

/-! ## Moves -/

/-- A running command abandons or runs its decoded instruction (R270, R303). -/
theorem proceed_eq_next {s t : State} (h : proceed s = .next t) :
    (s.closePending = true ∧ s.xfer.pending = false ∧ t = abandon s) ∨
    ((s.closePending = false ∨ s.xfer.pending = true) ∧ runCommand s = .next t) := by
  unfold proceed at h
  split_ifs at h with hc
  · exact .inl ⟨hc.1, hc.2, by cases h; rfl⟩
  · refine .inr ⟨?_, h⟩
    by_cases h1 : s.closePending = true
    · exact .inr (by_contra fun h2 => hc ⟨h1, by simpa using h2⟩)
    · exact .inl (by simpa using h1)

/-- A step of the executing command is its instruction's, or an illegal command's completion (R130, R270, R326). -/
theorem runCommand_eq_next {s t : State} (h : runCommand s = .next t) :
    (∃ i rest, decode (asmWords s) = .ok (i, rest) ∧ exec i s = .next t) ∨
    (∃ e op n, decode (asmWords s) = .error e ∧ s.sp = .run op .begin n ∧
      t = complete (if opField s.asm.hdr = 3 then s.asm.verdict else verdictOf (asmWords s) s) s) := by
  have illegal : completeIllegal s = .next t → ∃ op n, s.sp = .run op .begin n ∧
      t = complete (if opField s.asm.hdr = 3 then s.asm.verdict else verdictOf (asmWords s) s) s := by
    intro h
    unfold completeIllegal at h
    split at h
    · refine ⟨_, _, ‹_›, ?_⟩
      split_ifs at h with hop
      · rw [if_pos hop]; cases h; rfl
      · rw [if_neg hop]; cases h; rfl
    · cases h
  unfold runCommand at h
  split at h
  · exact .inl ⟨_, _, ‹_›, h⟩
  · obtain ⟨op, n, h1, h2⟩ := illegal h
    exact .inr ⟨_, op, n, ‹_›, h1, h2⟩
  · obtain ⟨op, n, h1, h2⟩ := illegal h
    exact .inr ⟨_, op, n, ‹_›, h1, h2⟩
  · cases h
  · cases h

/-- With no close pending a running command goes on by its decoded instruction (R270). -/
theorem proceed_decoded {i : Instr} {rest : List Word} {s : State} (hc : s.closePending = false)
    (hd : decode (asmWords s) = .ok (i, rest)) : proceed s = exec i s := by
  simp only [proceed, hc, Bool.false_eq_true, false_and, if_false, runCommand, hd]

/-- The core has no step in a hold unless a close is pending (R20, R380). -/
theorem coreStep_hold {op : Byte} {st : SeqStep} {n : Nat} {s : State} (hsp : s.sp = .run op st n)
    (hh : inHold s = true) (hc : s.closePending = false) : coreStep s = .next s := by
  simp only [coreStep, hsp, hh, hc, true_and, true_or, if_true]

/-- Out of a hold the core goes on with the executing command (R270). -/
theorem coreStep_ready {op : Byte} {st : SeqStep} {n : Nat} {s : State} (hsp : s.sp = .run op st n)
    (hh : inHold s = false) : coreStep s = proceed s := by
  simp only [coreStep, hsp, hh, Bool.false_eq_true, false_and, if_false]

/-- The four things the core's step can do (R20, R32, R270, R367). -/
theorem coreStep_eq_next {s t : State} (h : coreStep s = .next t) :
    t = s ∨
    (∃ w, s.sp = .idle ∧ s.busy = false ∧ s.held = some w ∧ accept w { s with held := none } = .next t) ∨
    (∃ op st n, s.sp = .run op st n ∧ s.xfer.pending = false ∧ (s.closePending = true ∨ inTimedHold s = false) ∧
      proceed s = .next t) := by
  unfold coreStep at h
  split at h
  · split at h
    · exact .inl (by cases h; rfl)
    · split_ifs at h with hb
      · exact .inr (.inl ⟨_, ‹_›, by simpa [cmdReady] using hb, ‹_›, h⟩)
      · exact .inl (by cases h; rfl)
  · split_ifs at h with hh
    · exact .inl (by cases h; rfl)
    · have hx : s.xfer.pending = false := by
        by_contra hc
        have hc : s.xfer.pending = true := by simpa using hc
        exact hh ⟨by simp [inHold, hc], .inr hc⟩
      refine .inr (.inr ⟨_, _, _, ‹_›, hx, ?_, h⟩)
      by_cases hc : s.closePending = true
      · exact .inl hc
      · refine .inr (by_contra fun ht => hh ⟨?_, .inl (by simpa using hc)⟩)
        simp [inHold, (by simpa using ht : inTimedHold s = true)]

/-- A turn without a host access is its move (R96). -/
theorem takeTurn_none (m : Move) (s : State) : takeTurn ⟨none, m⟩ s = move m s := rfl

/-- A turn with a host access is the HOST's step and then the move. -/
theorem takeTurn_some_eq_next {a : Access} {m : Move} {s t : State} (h : takeTurn ⟨some a, m⟩ s = .next t) :
    ∃ u, hostStep a s = .next u ∧ move m u = .next t := andThen_eq_next.1 h

/-- The two things a step of the machine can do: the core moves, or the schedule's next turn is taken. -/
theorem step_eq_next {s t : State} (h : step s = .next t) :
    (s.turns = [] ∧ coreStep s = .next t) ∨
    (∃ u rest, s.turns = u :: rest ∧ takeTurn u { s with turns := rest } = .next t) := by
  unfold step machineStep at h
  split at h
  · exact .inl ⟨‹_›, h⟩
  · exact .inr ⟨_, _, ‹_›, h⟩

/-! ## Reading a trace -/

/-- A trace is read piece by piece. -/
theorem readTrace_append (shared : Bool) (l : WireLevels) (xs ys : List Event) :
    readTrace shared l (xs ++ ys) = (readTrace shared l xs).bind fun l' => readTrace shared l' ys := by
  induction xs generalizing l with
  | nil => rfl
  | cons e xs ih =>
    simp only [List.cons_append, readTrace]
    cases l.after shared e with
    | none => rfl
    | some l' => exact ih l'

end Sys2Proof.Machine
end

