-- ==== Sys2Proof/Laws/PerInstr.lean ====
section
/-!
SUPPORT. Facts about every instruction as syntax, one lemma per constructor: the length of its encoding (30_encoding R125,
R127) and that it is well formed (R131).
-/

namespace Sys2Proof.Laws

/-- An instruction's encoding is its header and the operand words its opcode asks for, its header holds its opcode, that opcode is
defined, and its must-be-zero bits are 0. -/
def EncodedForm.Statement (i : Instr) : Prop :=
  i.wellFormed = true ∧ ∃ hdr operands, encode i = hdr :: operands ∧ opField hdr = i.opcode ∧
    operands.length = operandWords i.opcode ∧ definedOp i.opcode = true ∧ rsvzClear hdr = true

/-- A header's opcode field (R121). -/
theorem opField_header (op : Byte) (arg : BitVec 24) : opField (header op arg) = op := by
  apply BitVec.eq_of_getLsbD_eq
  intro i hi
  simp only [opField, header, BitVec.getLsbD_extractLsb', BitVec.getLsbD_append]
  simp [hi]

theorem EncodedForm.init (resetMs : Half) (orient : BitVec 2) (bgr inv : Bool) :
    EncodedForm.Statement (.init resetMs orient bgr inv) := by
  refine ⟨rfl, _, _, rfl, opField_header _ _, rfl, rfl, ?_⟩
  simp only [rsvzClear, opField_header]
  show ((header 1 (argInit resetMs orient bgr inv)).extractLsb' 20 4 == 0) = true
  simp only [beq_iff_eq, header, argInit]
  apply BitVec.eq_of_getLsbD_eq
  intro i hi
  simp only [BitVec.getLsbD_extractLsb', BitVec.getLsbD_append]
  interval_cases i <;> simp

theorem EncodedForm.writePixel (color x y : Half) : EncodedForm.Statement (.writePixel color x y) := by
  refine ⟨rfl, _, _, rfl, opField_header _ _, rfl, rfl, ?_⟩
  simp only [rsvzClear, opField_header]
  show ((header 2 (arg16 color)).extractLsb' 16 8 == 0) = true
  simp only [beq_iff_eq, header, arg16]
  apply BitVec.eq_of_getLsbD_eq
  intro i hi
  simp only [BitVec.getLsbD_extractLsb', BitVec.getLsbD_append]
  interval_cases i <;> simp

theorem EncodedForm.drawImage (x y w h : Half) : EncodedForm.Statement (.drawImage x y w h) :=
  ⟨rfl, _, _, rfl, rfl, rfl, rfl, rfl⟩

theorem EncodedForm.clear (color : Half) : EncodedForm.Statement (.clear color) := by
  refine ⟨rfl, _, _, rfl, opField_header _ _, rfl, rfl, ?_⟩
  simp only [rsvzClear, opField_header]
  show ((header 4 (arg16 color)).extractLsb' 16 8 == 0) = true
  simp only [beq_iff_eq, header, arg16]
  apply BitVec.eq_of_getLsbD_eq
  intro i hi
  simp only [BitVec.getLsbD_extractLsb', BitVec.getLsbD_append]
  interval_cases i <;> simp

theorem EncodedForm.flush : EncodedForm.Statement .flush := ⟨rfl, _, _, rfl, rfl, rfl, rfl, rfl⟩
theorem EncodedForm.sleep : EncodedForm.Statement .sleep := ⟨rfl, _, _, rfl, rfl, rfl, rfl, rfl⟩
theorem EncodedForm.wake : EncodedForm.Statement .wake := ⟨rfl, _, _, rfl, rfl, rfl, rfl, rfl⟩
theorem EncodedForm.close : EncodedForm.Statement .close := ⟨rfl, _, _, rfl, rfl, rfl, rfl, rfl⟩

end Sys2Proof.Laws
end

