-- ==== Sys2Proof/Tests/Slice0.lean ====
section
/-!
SUPPORT. Tests. Expected values are the spec's own: 30_encoding R138, 95_test_vectors (V-… names), or the named rule worked by
hand. The theorems named `wit_…` show that the hypotheses of the statement they name can be met.
-/

namespace Sys2Proof.Tests

open Sys2Proof.Machine

/-! ## Well-formedness: an ill-formed term for each check -/

theorem test_example_params_wellFormed : Config.exampleParams.wellFormed = true := by decide

theorem test_params_refused :
    { Config.exampleParams with panelW := 0 }.wellFormed = false ∧
    { Config.exampleParams with panelW := 65536 }.wellFormed = false ∧
    { Config.exampleParams with panelH := 0 }.wellFormed = false ∧
    { Config.exampleParams with panelH := 65536 }.wellFormed = false ∧
    { Config.exampleParams with maxChunkBytes := 511 }.wellFormed = false ∧
    { Config.exampleParams with maxChunkBytes := 0 }.wellFormed = false ∧
    { Config.exampleParams with maxChunkBytes := 514 }.wellFormed = false ∧
    { Config.exampleParams with maxChunkBytes := 2 ^ 32, tbufBytes := 2 ^ 32 }.wellFormed = false ∧
    { Config.exampleParams with maxChunkBytes := 2, tbufBytes := 3 }.wellFormed = false ∧
    { Config.exampleParams with initTable := [⟨.lit 0, List.replicate 513 (.lit 0), 0⟩] }.wellFormed = false ∧
    { Config.exampleParams with colOffset := 65457 }.wellFormed = false ∧
    { Config.exampleParams with rowOffset := 65377 }.wellFormed = false := by decide +kernel

theorem test_hostLine_refused :
    (HostLine.w32 0x40 0).wellFormed = false ∧ (HostLine.w32 0x02 0).wellFormed = false ∧
    (HostLine.w32 0 (2 ^ 32)).wellFormed = false ∧ (HostLine.r32 0x40).wellFormed = false ∧
    (HostLine.r32 0x05).wellFormed = false ∧ (HostLine.init 65536 0 0 0).wellFormed = false ∧
    (HostLine.init 0 4 0 0).wellFormed = false ∧ (HostLine.init 0 0 2 0).wellFormed = false ∧
    (HostLine.init 0 0 0 2).wellFormed = false ∧ (HostLine.writePixel 65536 0 0).wellFormed = false ∧
    (HostLine.writePixel 0 65536 0).wellFormed = false ∧ (HostLine.writePixel 0 0 65536).wellFormed = false ∧
    (HostLine.drawImage 65536 0 1 1 [0]).wellFormed = false ∧ (HostLine.drawImage 0 65536 1 1 [0]).wellFormed = false ∧
    (HostLine.drawImage 0 0 65536 0 []).wellFormed = false ∧ (HostLine.drawImage 0 0 0 65536 []).wellFormed = false ∧
    (HostLine.drawImage 0 0 1 2 [0]).wellFormed = false ∧ (HostLine.drawImage 0 0 1 1 [65536]).wellFormed = false ∧
    (HostLine.clear 65536).wellFormed = false ∧ (HostLine.word (2 ^ 32)).wellFormed = false ∧
    (HostLine.abort 2).wellFormed = false := by decide +kernel

/-! ## Decoding: words written out from the spec's encodings -/

/-- V-ENC-1: OP 01, RSVZ 0000, INV 1, BGR 0, ORIENT 00, RESET_MS 000A. -/
theorem test_decode_init : decode [0x0108000A] = .ok (.init 10 0 false true, []) := by decide +kernel
/-- V-ENC-2. -/
theorem test_decode_init_landscape : decode [0x0105000A] = .ok (.init 10 1 true false, []) := by decide +kernel
/-- V-ENC-3. -/
theorem test_decode_writePixel : decode [0x0200F800, 0x00050003] = .ok (.writePixel 0xF800 3 5, []) := by decide +kernel
/-- V-ENC-4: the data words stay after the operand words. -/
theorem test_decode_drawImage : decode [0x03000000, 0x00020001, 0x00010003, 0xBBBBAAAA, 0x0000CCCC] =
    .ok (.drawImage 1 2 3 1, [0xBBBBAAAA, 0x0000CCCC]) := by decide +kernel
/-- V-ENC-6, with a colour. -/
theorem test_decode_clear : decode [0x0400001F] = .ok (.clear 0x001F, []) := by decide +kernel
theorem test_decode_flush : decode [0x05000000] = .ok (.flush, []) := by decide +kernel
theorem test_decode_sleep : decode [0x06000000] = .ok (.sleep, []) := by decide +kernel
theorem test_decode_wake : decode [0x07000000] = .ok (.wake, []) := by decide +kernel
theorem test_decode_close : decode [0x08000000] = .ok (.close, []) := by decide +kernel

/-- V-ENC-7 to V-ENC-13. -/
theorem test_decode_illegal :
    decode [0x00000000] = .error (.reservedOpcode 0) ∧ decode [0x09000000] = .error (.reservedOpcode 9) ∧
    decode [0xFF123456] = .error (.reservedOpcode 0xFF) ∧ decode [0x01100000] = .error (.reservedBits 1) ∧
    decode [0x02FF0000, 0] = .error (.reservedBits 2) ∧ decode [0x03000001, 0, 0x00010002] = .error (.reservedBits 3) ∧
    decode [0x05000001] = .error (.reservedBits 5) ∧ decode [0x04FFFFFF] = .error (.reservedBits 4) := by decide +kernel

/-- V-ENC-4, V-ENC-5, V-ENC-10, V-ENC-11 and R254: the length in words. -/
theorem test_commandLength :
    commandLength [0x03000000, 0x00020001, 0x00010003] = some 5 ∧ commandLength [0x03000000, 0, 0x00050000] = some 3 ∧
    commandLength [0x02FF0000] = some 2 ∧ commandLength [0x03000001, 0, 0x00010002] = some 4 ∧
    commandLength [0xFF123456] = some 1 ∧ commandLength [0x03000000, 0, 0x00A00050] = some 6403 := by decide +kernel

theorem test_encode : encode (.init 10 0 false true) = [0x0108000A] ∧
    encode (.writePixel 0xF800 3 5) = [0x0200F800, 0x00050003] ∧
    encode (.drawImage 1 2 3 1) = [0x03000000, 0x00020001, 0x00010003] ∧
    packPixels [0xAAAA, 0xBBBB, 0xCCCC] = [0xBBBBAAAA, 0x0000CCCC] := by decide +kernel

/-- The host's table words: the second word is bits 63..32. -/
theorem test_decodeTableWord :
    decodeTableWord 64 0x000500030200F800 = some (.writePixel 0xF800 3 5) ∧
    decodeTableWord 32 0x0200F800 = some (.writePixel 0xF800 0 0) ∧
    decodeTableWord 96 0x000100030002000103000000 = some (.drawImage 1 2 3 1) ∧
    decodeTableWord 32 0x0108000A = some (.init 10 0 false true) ∧ decodeTableWord 32 0x09000000 = none := by
  decide +kernel

/-- A machine's outcome, looked at through one function. -/
def seen {α : Type} (o : Out) (f : State → α) : Option α :=
  match o with
  | .next s => some (f s)
  | .fault _ => none
  | .refused _ => none

/-- R325 in UNINIT: INIT runs, CLOSE runs, FLUSH is the first instruction after reset and gives INIT_ERROR; an illegal header gives
ILLEGAL_COMMAND. -/
theorem test_first_instruction :
    seen (step (State.reset.withFetchWord 32 0x0108000A)) (fun t => (t.state, t.cfg)) =
      some (.resetting, ⟨0, false, true⟩) ∧
    seen (step (State.reset.withFetchWord 32 0x08000000)) (fun t => t.sp) = some (.run 8 .closeDeselect 0) ∧
    seen (step (State.reset.withFetchWord 32 0x05000000)) (fun t => (t.result, t.lastOp)) = some (.initError, 5) ∧
    seen (step (State.reset.withFetchWord 96 0x000100030002000103000000)) (fun t => (t.result, t.lastOp)) =
      some (.initError, 3) ∧
    seen (step (State.reset.withFetchWord 32 0x01100000)) (fun t => (t.result, t.lastOp)) =
      some (.illegalCommand, 1) := by decide +kernel

/-! ## States to test on -/

/-- A 2 x 2 panel with a two-entry init table. -/
def small : Params :=
  { Config.exampleParams with
    panelW := 2, panelH := 2, maxChunkBytes := 4, tbufBytes := 4,
    initTable := [⟨.lit 0x3A, [.lit 5], 7⟩, ⟨.invFromCfg, [], 0⟩] }

/-- The same on a shared bus. -/
def shared : Params := { small with sharedBus := true }

/-- The trace that leads to the levels of a step, with a command byte sent in an open frame. -/
def traceTo (p : Params) (lv : Bool × Bool × Bool) : List Event :=
  (if lv.2.1 then [] else [.rst false]) ++ (if lv.2.2 && p.sharedBus then [.lock] else []) ++
    if lv.1 then [] else [.cs false, .tx .command [0x2A] .ok]

/-- Command `i` executing at step `st` with counter `n`, in driver state `d`, with a dirty window if `dirty`. -/
def at_ (p : Params) (d : DriverState) (i : Instr) (st : SeqStep) (n : Nat) (dirty : Bool := false) : State :=
  let lv := stepLevels st
  { State.powerOn p 0 with
    state := d, busy := true, sp := .run i.opcode st n,
    asm := { Assembler.empty with hdr := (encode i).headD 0, opnd := (encode i).tail },
    csN := lv.1, rstN := lv.2.1, locked := lv.2.2, lockReq := lv.2.2 && p.sharedBus, dc := stepMode st != some false,
    dw := if dirty then ⟨true, 0, 1, 1, 1⟩ else Window.empty, trace := traceTo p lv }

/-- The invariant, field by field, as one Bool. -/
def invCheck (s : State) (armed : Bool) : Bool :=
  s.params.wellFormed && s.pb.wf && s.pb.all (fun c => decide (c.1 < pbSize s.params)) && s.tb.wf &&
  s.tb.all (fun c => decide (c.1 < s.params.tbufBytes)) &&
  ((s.dw.valid && s.dw.inPanel s.params) || s.dw == Window.empty) && s.reply == none &&
  s.busy == spStep s.sp false (fun _ => true) && (s.csN, s.rstN, s.locked) == spLevels s.sp &&
  (!s.lockReq || s.params.sharedBus) && (!s.locked || !s.params.sharedBus || s.lockReq) &&
  (!s.lockReq || s.locked || spStep s.sp false (fun st => st == .acquire)) &&
  (!s.xfer.pending || (spStep s.sp false (fun st => (stepMode st).isSome) && decide (1 ≤ s.xfer.len) &&
    decide (s.xfer.len ≤ s.params.tbufBytes))) &&
  (!s.xfer.pending || s.dc || decide (s.xfer.len = 1)) &&
  (match spStep s.sp none stepMode with | some b => s.dc == b | none => true) &&
  (match s.delay with | some ms => decide (ms ≠ 0) && spStep s.sp false stepDelays | none => true) &&
  (!s.closePending || (s.busy && !inTimedHold s)) && assemblerOk s && commandOk s &&
  (!s.busy || s.asm.phase == .none) &&
  readTrace s.params.sharedBus .start s.trace ==
    some { cs := s.csN, rst := s.rstN, locked := s.locked && s.params.sharedBus, armed := armed } &&
  (!spStep s.sp false stepArmed || armed)

theorem inv_of_check {s : State} (armed : Bool) (h : invCheck s armed = true) : Inv s := by
  simp only [invCheck, Bool.and_eq_true, Bool.or_eq_true, Bool.not_eq_true', decide_eq_true_eq, beq_iff_eq,
    List.all_eq_true] at h
  obtain ⟨⟨⟨⟨⟨⟨⟨⟨⟨⟨⟨⟨⟨⟨⟨⟨⟨⟨⟨⟨⟨h1, h2⟩, h3⟩, h4⟩, h5⟩, h6⟩, h7⟩, h8⟩, h9⟩, h10⟩, h11⟩, h12⟩, h13⟩, h14⟩, h15⟩, h16⟩, h17⟩, h18⟩,
    h19⟩, h20⟩, h21⟩, h22⟩ := h
  refine ⟨h1, h2, h3, h4, h5, h6, h7, h8, h9, ?_, ?_, ?_, ?_, ?_, ?_, ?_, ?_, h18, h19, ?_, armed, h21, ?_⟩
  · intro h; simpa [h] using h10
  · intro h h'; simpa [h, h'] using h11
  · intro h h'; simpa [h, h'] using h12
  · intro h; simpa [h, and_assoc] using h13
  · intro h h'; simpa [h, h'] using h14
  · intro b hb; simpa [hb] using h15
  · intro ms hm; simpa [hm] using h16
  · intro h; simpa [h] using h17
  · intro h; simpa [h] using h20
  · intro h; simpa [h] using h22


/-- An outcome seen to be a next state is one. -/
theorem seen_next {α : Type} {o : Out} {f : State → α} {v : α} (h : seen o f = some v) : ∃ t, o = .next t ∧ f t = v := by
  cases o with
  | next t => exact ⟨t, rfl, by simpa [seen] using h⟩
  | fault r => simp [seen] at h
  | refused r => simp [seen] at h

/-- Command `i` ready for its first step. -/
abbrev begin_ (d : DriverState) (i : Instr) (dirty : Bool := false) : State := at_ small d i .begin 0 dirty

/-! ## One step of each instruction -/

/-- R241 on a 2 x 2 panel: the far corner is entry 3; V-FB-6: a pixel inside DW leaves it. -/
theorem test_writePixel : seen (exec (.writePixel 0x07E0 1 1) (begin_ .ready (.writePixel 0x07E0 1 1)))
    (fun t => (readPixel t 3, t.dw, t.result, t.busy)) = some (0x07E0, ⟨true, 1, 1, 1, 1⟩, .ok, false) := by
  decide +kernel

/-- V-FB-2, V-FB-18: out of the panel; and accepted in SLEEPING. -/
theorem test_writePixel_states :
    seen (exec (.writePixel 1 2 0) (begin_ .ready (.writePixel 1 2 0))) (fun t => (t.result, t.pb, t.dw.valid, t.intErr)) =
      some (.outOfBounds, [], false, true) ∧
    seen (exec (.writePixel 0xFFFF 0 1) (begin_ .sleeping (.writePixel 0xFFFF 0 1))) (fun t => (t.result, t.state, readPixel t 2)) =
      some (.ok, .sleeping, 0xFFFF) := by decide +kernel

/-- V-FB-15's shape: words AAAA/BBBB then CCCC of a 1 x 2 image; the last P1 is ignored. -/
theorem test_drawImage : seen (acceptWords [0x03000000, 0x00000001, 0x00020001, 0xBBBBAAAA]
      { State.powerOn small 0 with state := .ready }) (fun t => (t.pb, t.busy, t.sp)) =
    some ([(1, 0xAAAA), (3, 0xBBBB)], true, .run 3 .begin 0) := by decide +kernel

/-- V-FB-9: one column too wide: rejected at its WH word, both data words consumed, nothing written. V-FB-13 and R254: an
image without pixels is OK however long its other side; V-FB-14: unless its origin is outside. -/
theorem test_drawImage_rejected :
    seen (acceptWords [0x03000000, 0, 0x00C80000] { State.powerOn small 0 with state := .ready })
      (fun t => (t.asm.verdict, t.busy)) = some (.ok, true) ∧
    seen (acceptWords [0x03000000, 2, 0] { State.powerOn small 0 with state := .ready })
      (fun t => (t.asm.verdict, t.busy)) = some (.outOfBounds, true) ∧ seen (acceptWords [0x03000000, 0x00000001, 0x00020002, 0xBBBBAAAA, 0x0000CCCC]
      { State.powerOn small 0 with state := .ready }) (fun t => (t.pb, t.asm.verdict, t.busy)) =
    some ([], .outOfBounds, true) := by decide +kernel

/-- V-FB-16: every entry, and the whole panel dirty. -/
theorem test_clear : seen (exec (.clear 0x001F) (begin_ .ready (.clear 0x001F))) (fun t => (t.pb, t.dw, t.result)) =
    some ([(0, 0x1F), (1, 0x1F), (2, 0x1F), (3, 0x1F)], ⟨true, 0, 0, 1, 1⟩, .ok) := by decide +kernel

/-- R273: CFG from the header, RESETTING. R167: ResetLow's event. -/
theorem test_init : seen (exec (.init 10 1 true false) (begin_ .uninit (.init 10 1 true false)))
      (fun t => (t.cfg, t.state)) = some (⟨1, true, false⟩, .resetting) ∧
    seen (exec (.init 10 1 true false) (at_ small .resetting (.init 10 1 true false) .resetLow 0))
      (fun t => (t.rstN, t.trace, t.sp)) = some (false, [.rst false], .run 1 .resetHold 0) := by decide +kernel

/-- R281 (V-DRV-8), and R206: the row window 1..1 sent high byte first. -/
theorem test_flush : seen (exec .flush (begin_ .ready .flush)) (fun t => (t.result, t.trace, t.state)) =
      some (.ok, [], .ready) ∧
    seen (exec .flush (at_ small .flushing .flush (.group .raset .params) 0 true)) (fun t => (sentBytes t, t.xfer)) =
      some ([0, 1, 0, 1], ⟨true, 4⟩) := by decide +kernel

/-- R289 after its delay, R290 after an ERR. -/
theorem test_sleep : seen (timerAnswer { at_ small .ready .sleep .postDelay 0 with delay := some 5 })
      (fun t => (t.state, t.result, t.lastOp)) = some (.sleeping, .ok, 6) ∧
    seen (exec .sleep (at_ small .ready .sleep .abortRelease 0)) (fun t => (t.state, t.result)) =
      some (.ready, .transportError) := by decide +kernel

/-- R294: the command byte is SLPOUT, in Command mode. -/
theorem test_wake : seen (exec .wake (at_ small .sleeping .wake (.group .slpout .cmdByte) 0))
      (fun t => (sentBytes t, t.dc, t.xfer.len)) = some ([0x11], false, 1) := by decide +kernel

/-- R299, R300: the last step enters CLOSED; V-DRV-17: in CLOSED a CLOSE is rejected. -/
theorem test_close : seen (exec .close (at_ small .uninit .close .closeResetHigh 0)) (fun t => (t.state, t.result, t.trace)) =
      some (.closed, .ok, []) ∧
    seen (exec .close (begin_ .closed .close)) (fun t => (t.state, t.result)) = some (.closed, .closedError) := by
  decide +kernel

/-- From reset (95_test_vectors section 0): the registers the host reads. -/
theorem test_reset_registers : statusReg State.reset = 0x05000020 ∧ readReg State.reset 0x18 = 0x00A00050 ∧
    readReg State.reset 0x24 = 0x00000200 ∧ readReg State.reset 0x20 = 0 := by decide +kernel

/-! ## Witnesses: the hypotheses of each statement, met -/

theorem wit_encodeDecodeRoundTrip : decode [0x01FF0000 &&& 0xFF0FFFFF, 7] = .ok (.init 0 3 true true, [7]) := by
  decide +kernel

/-- Each form of illegal header at the ends of its range. -/
theorem wit_illegalHeadersRejected :
    ((0x00FFFFFF : Word).toNat / 2 ^ 24 = 0 ∧ 9 ≤ (0x09000000 : Word).toNat / 2 ^ 24 ∧ 9 ≤ (0xFF000000 : Word).toNat / 2 ^ 24) ∧
    ((0x01100000 : Word).toNat / 2 ^ 24 = 1 ∧ (0x01100000 : Word) &&& 0x00F00000 ≠ 0 ∧ (0x01800000 : Word) &&& 0x00F00000 ≠ 0) ∧
    ((0x02010000 : Word).toNat / 2 ^ 24 = 2 ∧ (0x02010000 : Word) &&& 0x00FF0000 ≠ 0 ∧
      (0x04800000 : Word).toNat / 2 ^ 24 = 4 ∧ (0x04800000 : Word) &&& 0x00FF0000 ≠ 0) ∧
    ((0x03000001 : Word).toNat / 2 ^ 24 = 3 ∧ (0x03000001 : Word) &&& 0x00FFFFFF ≠ 0 ∧
      5 ≤ (0x05000001 : Word).toNat / 2 ^ 24 ∧ (0x08800000 : Word).toNat / 2 ^ 24 ≤ 8 ∧
      (0x08800000 : Word) &&& 0x00FFFFFF ≠ 0) := by decide +kernel

/-- R137 worked by hand, at the largest operands, and an image line. -/
theorem wit_hostLinesExpand :
    (HostLine.init 65535 3 1 1).expand 0 = some [.write 0 32 0x010FFFFF] ∧
    (HostLine.writePixel 65535 65535 65535).expand 0 = some [.write 0 32 0x0200FFFF, .write 0 32 0xFFFFFFFF] ∧
    (HostLine.drawImage 1 2 3 1 [0xAAAA, 0xBBBB, 0xCCCC]).expand 0 =
      some [.write 0 32 0x03000000, .write 0 32 0x00020001, .write 0 32 0x00010003, .write 0 32 0xBBBBAAAA,
        .write 0 32 0x0000CCCC] ∧
    (HostLine.clear 65535).expand 0 = some [.write 0 32 0x0400FFFF] ∧
    (HostLine.init 65536 0 0 0).expand 0 = none ∧ (HostLine.writePixel 0 65536 0).expand 0 = none ∧
    (HostLine.drawImage 0 0 1 1 [65536]).expand 0 = none ∧ (HostLine.clear 65536).expand 0 = none ∧
    (HostLine.w32 0x3C 0xFFFFFFFF).expand 0x1000 = some [.write 0x103C 32 0xFFFFFFFF] ∧
    (HostLine.word 0x09000000).expand 0 = some [.write 0 32 0x09000000] ∧
    HostLine.waitIdle.expand 0 = some [.read 4 32] ∧ (HostLine.abort 1).expand 0 = some [.write 8 32 3] := by
  decide +kernel

theorem wit_hostLoad : (0x3C < 0x40 ∧ 0x3C % 4 = 0 ∧ 0x28 ≤ 0x3C) ∧ State.reset.params.wellFormed = true := by
  decide +kernel

/-- A block at 0x1000: the addresses just outside, and undefined accesses at its ends. -/
theorem wit_undefinedAccessesRefused :
    let s := State.powerOn { small with regBase := 0x1000 } 0
    0xFFF < s.params.regBase ∧ s.params.regBase + 0x3F < 0x1040 ∧
    (s.params.regBase ≤ 0x1000 ∧ 0x1000 ≤ s.params.regBase + 0x3F ∧ (16 ≠ 32)) ∧
    (s.params.regBase ≤ 0x103F ∧ 0x103F ≤ s.params.regBase + 0x3F ∧ (0x103F - s.params.regBase) % 4 ≠ 0) := by
  decide +kernel

theorem wit_readOnlyOffsets : (0x04 < 0x40 ∧ 0x04 % 4 = 0 ∧ 0x04 ≠ 0x00 ∧ 0x04 ≠ 0x08 ∧ 0x04 ≠ 0x0C) ∧
    (0x3C < 0x40 ∧ 0x3C % 4 = 0 ∧ 0x3C ≠ 0x00 ∧ 0x3C ≠ 0x08 ∧ 0x3C ≠ 0x0C) := by decide

theorem wit_completionBeatsInterruptClear :
    let s := begin_ .ready (.writePixel 1 0 0)
    (∃ t, takeTurn ⟨some (.write (s.params.regBase + 0x0C) 32 3), .core⟩ s = .next t ∧ t.busy = false) ∧
      (∃ t, takeTurn ⟨some (.write (s.params.regBase + 0x0C) 32 3), .core⟩ (begin_ .uninit .flush) = .next t ∧
        (t.result, t.busy) = (.initError, false)) ∧
      s.busy = true ∧ (begin_ .uninit .flush).busy = true ∧ Move.core ≠ .blockReset :=
  ⟨seen_next (by decide +kernel), seen_next (by decide +kernel), by decide +kernel⟩

theorem wit_resultChanges : ∃ t, step (begin_ .uninit .flush) = .next t ∧
    (t.result != (begin_ .uninit .flush).result || t.lastOp != (begin_ .uninit .flush).lastOp) = true :=
  seen_next (by decide +kernel)

/-- Clause by clause: accepted, held because busy; and, with a word held, the HOST's hold, in which a STATUS load is not
made and a CTRL store is, and the held word's acceptance. -/
theorem wit_commandWord :
    State.reset.busy = false ∧ (begin_ .ready .flush).busy = true ∧ State.reset.held = none ∧
    (let s := { State.reset with held := some 0x05000000 }
     s.held = some 0x05000000 ∧ s.turns = [] ∧ s.sp = .idle ∧ s.busy = false ∧
       (∀ v, Access.read 4 32 ≠ .write (s.params.regBase + 0x08) 32 v) ∧
       seen (takeTurn ⟨some (.read 4 32), .rest⟩ s) (fun t => (t.rdata, t.held)) = some (0, some 0x05000000) ∧
       seen (takeTurn ⟨some (.write 8 32 1), .rest⟩ s) (fun t => (t.doneIe, t.held)) = some (true, some 0x05000000) ∧
       seen (step s) (fun t => (t.busy, t.held)) = some (true, none)) := by
  refine ⟨rfl, rfl, rfl, rfl, rfl, rfl, rfl, by intro v; exact Access.noConfusion, ?_⟩
  decide +kernel

/-- What accepting words leaves in the assembler and SP. -/
def asmView (t : State) : AsmPhase × Nat × Code × SeqPtr := (t.asm.phase, t.asm.left, t.asm.verdict, t.sp)

/-- From phase NONE: a reserved opcode at each end of its range; opcode 0x02 with a RSVZ bit, one word in and whole; 0x03
with a RSVZ bit, with pixels and with none, the last in CLOSED. Lengths and codes by V-ENC-9 to V-ENC-11 and R130. -/
theorem wit_acceptedWords : State.reset.asm.phase = .none ∧ { State.reset with state := .closed }.asm.phase = .none ∧
    (seen (acceptWords [0x00FFFFFF] State.reset) asmView = some (.none, 0, .ok, .run 0 .begin 0) ∧
      seen (acceptWords [0x09000000] State.reset) asmView = some (.none, 0, .ok, .run 9 .begin 0)) ∧
    (seen (acceptWords [0x02010000] State.reset) asmView = some (.oper, 1, .ok, .idle) ∧
      seen (acceptWords [0x02010000, 0] State.reset) asmView = some (.none, 0, .ok, .run 2 .begin 0)) ∧
    ((0x03000001 : Word) &&& 0x00FFFFFF ≠ 0 ∧
      seen (acceptWords [0x03000001, 0, 0x00010003] State.reset) asmView = some (.data, 2, .illegalCommand, .idle) ∧
      seen (acceptWords [0x03000001, 0, 0x00010000] { State.reset with state := .closed }) asmView =
        some (.none, 0, .closedError, .run 3 .begin 0)) := by
  refine ⟨rfl, rfl, ⟨?_, ?_⟩, ⟨?_, ?_⟩, ?_, ?_, ?_⟩ <;> decide +kernel

/-- A whole-panel image of 2 x 2 pixels, accepted and rejected, waiting for its two data words. -/
def imageState (v : Code) : State :=
  { State.powerOn small 0 with
    state := .ready, asm := { phase := .data, hdr := 0x03000000, opnd := [0, 0x00020002], left := 2, k := 0, verdict := v } }

theorem wit_drawImageData : (imageState .ok).asm.phase = .data ∧ (imageState .ok).asm.verdict = .ok ∧
    imageFits (imageState .ok) = true ∧ (imageState .ok).asm.k = 0 ∧ 0 < imageW (imageState .ok) * imageH (imageState .ok) ∧
    (imageState .ok).asm.left = ceilDiv (imageW (imageState .ok) * imageH (imageState .ok)) 2 ∧
    ([0x22221111, 0x44443333] : List Word).length = (imageState .ok).asm.left := by decide +kernel

theorem wit_rejectedImage : (imageState .outOfBounds).asm.phase = .data ∧ (imageState .outOfBounds).asm.verdict ≠ .ok ∧
    0 < (imageState .outOfBounds).asm.left ∧ ([1, 2] : List Word).length = (imageState .outOfBounds).asm.left := by
  decide +kernel

theorem wit_checkFollowsPriority :
    (begin_ .closed .flush).state = .closed ∧
    ((begin_ .ready .flush).state ≠ .closed ∧ decode [0x09000000] = .error (.reservedOpcode 9)) ∧
    (begin_ .uninit .flush).state = .uninit ∧ (begin_ .ready .flush).state = .ready ∧
    (begin_ .sleeping .wake).state = .sleeping := by decide +kernel

/-- Rejected by its check; by its verdict; a reserved opcode; reserved bits of an image's header. -/
theorem wit_rejectedCommand :
    ((begin_ .uninit .flush).sp = .run 5 .begin 0 ∧ check .flush (begin_ .uninit .flush) ≠ .ok) ∧
    ({ begin_ .ready (.drawImage 2 0 1 1) with asm := { Assembler.empty with verdict := .outOfBounds } }.asm.verdict ≠ .ok) ∧
    (decode [0x09000000] = .error (.reservedOpcode 9) ∧ opField 0x09000000 ≠ 3) ∧
    (decode [0x03000001, 0, 0] = .error (.reservedBits 3) ∧ opField 0x03000001 = 3) := by decide +kernel

theorem wit_writePixelCompletes : (begin_ .ready (.writePixel 9 1 1)).sp = .run 2 .begin 0 ∧
    ((begin_ .ready (.writePixel 9 1 1)).state = .ready) ∧ (1 : Half).toNat < small.panelW ∧ (1 : Half).toNat < small.panelH := by
  decide +kernel

/-- An image with pixels and an empty one, both with the verdict OK. -/
theorem wit_drawImageCompletes : (begin_ .ready (.drawImage 0 0 2 2)).sp = .run 3 .begin 0 ∧
    (begin_ .ready (.drawImage 0 0 2 2)).asm.verdict = .ok ∧ 0 < (2 : Half).toNat * (2 : Half).toNat ∧
    (0 : Half).toNat * (5 : Half).toNat = 0 := by decide +kernel

theorem wit_clearCompletes : (begin_ .sleeping (.clear 1)).sp = .run 4 .begin 0 ∧
    (begin_ .sleeping (.clear 1)).state = .sleeping ∧ (begin_ .sleeping (.clear 1)).params.wellFormed = true := by
  decide +kernel

/-- Each of the three commands takes a next state, accepted and rejected. -/
theorem wit_framebufferFrame :
    (∃ t, exec (.writePixel 9 1 1) (begin_ .ready (.writePixel 9 1 1)) = .next t ∧ t.result = .ok) ∧
    (∃ t, exec (.writePixel 9 2 1) (begin_ .ready (.writePixel 9 2 1)) = .next t ∧ t.result = .outOfBounds) ∧
    (∃ t, exec (.drawImage 0 0 1 1) (begin_ .ready (.drawImage 0 0 1 1)) = .next t ∧ t.result = .ok) ∧
    (∃ t, exec (.clear 7) (begin_ .ready (.clear 7)) = .next t ∧ t.result = .ok) ∧
    (∀ cell ∈ (begin_ .ready (.clear 7)).pb, cell.1 < pbSize (begin_ .ready (.clear 7)).params) ∧
    small.panelW * small.panelH ≤ 4 :=
  ⟨seen_next (by decide +kernel), seen_next (by decide +kernel), seen_next (by decide +kernel), seen_next (by decide +kernel),
    by decide +kernel⟩

/-- A window and a rectangle at the ends of the coordinate range, and a rectangle that covers both. -/
theorem wit_extend : let dw : Window := ⟨true, 5, 5, 6, 6⟩
    ((0 : Half).toNat ≤ 0 ∧ 0 ≤ (65535 : Half).toNat) ∧ (dw.valid = true ∧ dw.x0.toNat ≤ 5 ∧ 5 ≤ dw.x1.toNat) ∧
    (0 ≤ (0 : Half).toNat ∧ (65535 : Half).toNat ≤ 65535 ∧ 0 ≤ dw.x0.toNat ∧ dw.x1.toNat ≤ 65535) := by decide +kernel

/-! ### Step by step -/

abbrev anInit : Instr := .init 10 1 true false

/-- INIT's states, clause by clause; `reply` holds an answer where the clause needs one. -/
theorem wit_initStepByStep :
    ((begin_ .uninit anInit).xfer.pending = false ∧ (begin_ .uninit anInit).sp = .run 1 .begin 0 ∧
      (begin_ .uninit anInit).state = .uninit) ∧
    (let s := at_ small .resetting anInit .resetLow 0
     s.xfer.pending = false ∧ s.sp = .run 1 .resetLow 0 ∧ s.rstN = true) ∧
    (let s := at_ small .resetting anInit .resetHold 0
     s.xfer.pending = false ∧ s.sp = .run 1 .resetHold 0 ∧ (10 : Half) ≠ 0 ∧ s.reply = none ∧
       { s with reply := some .ok }.reply = some .ok) ∧
    (let s := at_ small .resetting anInit .resetHigh 0
     s.xfer.pending = false ∧ s.sp = .run 1 .resetHigh 0 ∧ s.rstN = false) ∧
    (let s := at_ small .resetting anInit .recovery 0
     s.xfer.pending = false ∧ s.sp = .run 1 .recovery 0 ∧ s.params.tResetRecovery ≠ 0 ∧ s.reply = none) ∧
    (let s := at_ small .initializing anInit .deselect 0
     s.xfer.pending = false ∧ s.sp = .run 1 .deselect 0 ∧ s.csN = false) ∧
    (let s := at_ small .initializing anInit .postDelay 0
     s.xfer.pending = false ∧ s.sp = .run 1 .postDelay 0 ∧ s.params.tPostInit ≠ 0 ∧ s.reply = none) ∧
    (let s := at_ small .initializing anInit .abortDeselect 0
     s.xfer.pending = false ∧ s.sp = .run 1 .abortDeselect 0 ∧ s.csN = false) ∧
    (let s := at_ small .initializing anInit .abortRelease 0
     s.xfer.pending = false ∧ s.sp = .run 1 .abortRelease 0 ∧ s.locked = true ∧ s.params.sharedBus = false) ∧
    (let s := at_ shared .initializing anInit .abortRelease 0
     s.xfer.pending = false ∧ s.sp = .run 1 .abortRelease 0 ∧ s.locked = true ∧ s.params.sharedBus = true ∧
       s.lockReq = true) := by decide +kernel

/-- INIT's frame, clause by clause: entry 0 has a parameter and a delay. -/
theorem wit_initTableStepByStep :
    (let s := at_ small .initializing anInit .acquire 0
     s.xfer.pending = false ∧ s.sp = .run 1 .acquire 0 ∧ s.params.sharedBus = false ∧ s.reply = none) ∧
    (let s := at_ shared .initializing anInit .acquire 0
     s.xfer.pending = false ∧ s.sp = .run 1 .acquire 0 ∧ s.params.sharedBus = true ∧ s.reply = none) ∧
    (let s := at_ small .initializing anInit .select 0
     s.xfer.pending = false ∧ s.sp = .run 1 .select 0 ∧ s.csN = true) ∧
    small.initTable[0]? = some ⟨.lit 0x3A, [.lit 5], 7⟩ ∧
    (at_ small .initializing anInit (.group .initEntry .cmdMode) 0).sp = .run 1 (.group .initEntry .cmdMode) 0 ∧
    (let s := at_ small .initializing anInit (.group .initEntry .cmdByte) 0
     s.sp = .run 1 (.group .initEntry .cmdByte) 0 ∧ 1 ≤ s.params.tbufBytes ∧ s.reply = none ∧
       { s with reply := some .err }.reply = some .err) ∧
    (at_ small .initializing anInit (.group .initEntry .dataMode) 0).sp = .run 1 (.group .initEntry .dataMode) 0 ∧
    (let s := at_ small .initializing anInit (.group .initEntry .params) 0
     s.sp = .run 1 (.group .initEntry .params) 0 ∧ 1 ≤ [ParamByte.lit 5].length ∧
       [ParamByte.lit 5].length ≤ s.params.tbufBytes ∧ s.reply = none) ∧
    (let s := at_ small .initializing anInit (.group .initEntry .settle) 0
     s.sp = .run 1 (.group .initEntry .settle) 0 ∧ (7 : Half) ≠ 0 ∧ s.reply = none) ∧
    (let s := at_ small .initializing anInit .release 0
     s.sp = .run 1 .release 0 ∧ s.locked = true ∧ s.params.sharedBus = false) ∧
    (let s := at_ shared .initializing anInit .release 0
     s.xfer.pending = false ∧ s.sp = .run 1 .release 0 ∧ s.locked = true ∧ s.params.sharedBus = true ∧
       s.lockReq = true) := by decide +kernel

/-- FLUSH's states, clause by clause; the window is 2 x 1 pixels, so there is one chunk. -/
theorem wit_flushStepByStep :
    (let s := begin_ .ready .flush true
     s.xfer.pending = false ∧ s.sp = .run 5 .begin 0 ∧ s.state = .ready ∧ s.dw.valid = true) ∧
    (let s := begin_ .ready .flush
     s.sp = .run 5 .begin 0 ∧ s.state = .ready ∧ s.dw.valid = false) ∧
    (let s := { at_ small .flushing .flush (.group .ramwr .cmdByte) 0 true with reply := some .ok }
     s.xfer.pending = false ∧ s.sp = .run 5 (.group .ramwr .cmdByte) 0 ∧ s.reply = some .ok) ∧
    (let s := at_ small .flushing .flush .pixelMode 0 true
     s.sp = .run 5 .pixelMode 0 ∧ s.dw.inPanel s.params = true ∧ s.params.wellFormed = true) ∧
    (let s := at_ small .flushing .flush .chunk 0 true
     s.xfer.pending = false ∧ s.sp = .run 5 .chunk 0 ∧ s.dw.inPanel s.params = true ∧ s.params.wellFormed = true ∧
       0 < chunkCount s ∧ s.reply = none ∧ { s with reply := some .err }.reply = some .err) ∧
    (let s := at_ small .flushing .flush .release 0 true
     s.sp = .run 5 .release 0 ∧ s.locked = true ∧ s.params.sharedBus = false) ∧
    (let s := at_ shared .flushing .flush .release 0 true
     s.sp = .run 5 .release 0 ∧ s.locked = true ∧ s.params.sharedBus = true ∧ s.lockReq = true) ∧
    (let s := at_ small .flushing .flush .deselect 0 true
     s.sp = .run 5 .deselect 0 ∧ s.csN = false) ∧
    (let s := at_ small .flushing .flush .abortDeselect 0 true
     s.sp = .run 5 .abortDeselect 0 ∧ s.csN = false) ∧
    (let s := at_ small .flushing .flush .abortRelease 0 true
     s.sp = .run 5 .abortRelease 0 ∧ s.locked = true ∧ s.params.sharedBus = false) ∧
    (let s := at_ shared .flushing .flush .abortRelease 0 true
     s.xfer.pending = false ∧ s.sp = .run 5 .abortRelease 0 ∧ s.locked = true ∧ s.params.sharedBus = true ∧
       s.lockReq = true) := by decide +kernel

theorem wit_addressWindowStepByStep :
    (let s := at_ small .flushing .flush .acquire 0 true
     s.xfer.pending = false ∧ s.sp = .run 5 .acquire 0 ∧ s.params.sharedBus = false ∧ s.reply = none) ∧
    (let s := at_ shared .flushing .flush .acquire 0 true
     s.sp = .run 5 .acquire 0 ∧ s.params.sharedBus = true ∧ s.reply = none) ∧
    (let s := at_ small .flushing .flush .select 0 true
     s.sp = .run 5 .select 0 ∧ s.csN = true) ∧
    (let s := at_ small .flushing .flush (.group .caset .cmdMode) 0 true
     s.xfer.pending = false ∧ s.sp = .run 5 (.group .caset .cmdMode) 0) ∧
    (let s := at_ small .flushing .flush (.group .caset .cmdByte) 0 true
     s.sp = .run 5 (.group .caset .cmdByte) 0 ∧ 4 ≤ s.params.tbufBytes ∧ s.reply = none ∧ small.bytes.caset = 0x2A) ∧
    (let s := at_ small .flushing .flush (.group .raset .dataMode) 0 true
     s.sp = .run 5 (.group .raset .dataMode) 0) ∧
    (let s := at_ small .flushing .flush (.group .raset .params) 0 true
     s.sp = .run 5 (.group .raset .params) 0 ∧ 4 ≤ s.params.tbufBytes ∧ s.reply = none) ∧
    (let s := at_ small .flushing .flush (.group .ramwr .cmdMode) 0 true
     s.sp = .run 5 (.group .ramwr .cmdMode) 0) ∧
    (let s := at_ small .flushing .flush (.group .ramwr .cmdByte) 0 true
     s.sp = .run 5 (.group .ramwr .cmdByte) 0 ∧ 4 ≤ s.params.tbufBytes ∧ s.reply = none ∧
       { s with reply := some .err }.reply = some .err) := by decide +kernel

theorem wit_sleepWakeStepByStep :
    (let s := begin_ .ready .sleep
     s.xfer.pending = false ∧ s.sp = .run 6 .begin 0 ∧ s.state = .ready) ∧
    (let s := begin_ .sleeping .wake
     s.xfer.pending = false ∧ s.sp = .run 7 .begin 0 ∧ s.state = .sleeping) ∧
    (let s := at_ small .ready .sleep .acquire 0
     s.sp = .run 6 .acquire 0 ∧ s.params.sharedBus = false ∧ s.reply = none) ∧
    (let s := at_ shared .ready .sleep .acquire 0
     s.sp = .run 6 .acquire 0 ∧ s.params.sharedBus = true ∧ s.reply = none) ∧
    (let s := at_ small .ready .sleep .select 0
     s.sp = .run 6 .select 0 ∧ s.csN = true) ∧
    (let s := at_ small .sleeping .wake (.group .slpout .cmdMode) 0
     s.sp = .run 7 (.group .slpout .cmdMode) 0) ∧
    (let s := at_ small .sleeping .wake (.group .slpout .cmdByte) 0
     s.sp = .run 7 (.group .slpout .cmdByte) 0 ∧ 1 ≤ s.params.tbufBytes ∧ s.reply = none) ∧
    (let s := at_ small .sleeping .wake .release 0
     s.sp = .run 7 .release 0 ∧ s.locked = true ∧ s.params.sharedBus = false ∧ s.params.tSleepOut ≠ 0) ∧
    (let s := at_ { small with tSleepIn := 0 } .ready .sleep .release 0
     s.sp = .run 6 .release 0 ∧ s.locked = true ∧ s.params.sharedBus = false ∧ s.params.tSleepIn = 0) ∧
    (let s := at_ shared .ready .sleep .release 0
     s.xfer.pending = false ∧ s.sp = .run 6 .release 0 ∧ s.locked = true ∧ s.params.sharedBus = true ∧
       s.lockReq = true) ∧
    (let s := at_ small .ready .sleep .deselect 0
     s.sp = .run 6 .deselect 0 ∧ s.csN = false) ∧
    (let s := at_ small .sleeping .wake .abortDeselect 0
     s.sp = .run 7 .abortDeselect 0 ∧ s.csN = false) ∧
    (let s := at_ shared .sleeping .wake .abortRelease 0
     s.xfer.pending = false ∧ s.sp = .run 7 .abortRelease 0 ∧ s.locked = true ∧ s.params.sharedBus = true ∧
       s.lockReq = true) ∧
    (let s := at_ small .ready .sleep .postDelay 0
     s.sp = .run 6 .postDelay 0 ∧ s.params.tSleepIn ≠ 0 ∧ s.reply = none) ∧
    (let s := at_ small .ready .sleep .abortRelease 0
     s.sp = .run 6 .abortRelease 0 ∧ s.locked = true ∧ s.params.sharedBus = false) := by decide +kernel

theorem wit_closeStepByStep :
    (let s := begin_ .uninit .close
     s.xfer.pending = false ∧ s.csN = true ∧ s.locked = false ∧ s.rstN = true ∧ s.lockReq = false ∧
       s.sp = .run 8 .begin 0 ∧ s.state ≠ .closed) ∧
    (at_ small .uninit .close .closeDeselect 0).sp = .run 8 .closeDeselect 0 ∧
    (at_ small .uninit .close .closeRelease 0).sp = .run 8 .closeRelease 0 ∧
    (at_ small .uninit .close .closeResetHigh 0).sp = .run 8 .closeResetHigh 0 := by decide +kernel

/-- Each driver command takes a step: a first step, a staging step, a line step. -/
theorem wit_driverFrame :
    (∃ t, exec anInit (begin_ .uninit anInit) = .next t ∧ t.cfg = ⟨1, true, false⟩) ∧
    (∃ t, exec .sleep (at_ small .ready .sleep (.group .slpin .cmdByte) 0) = .next t ∧ t.xfer.len = 1) ∧
    (∃ t, exec .wake (at_ small .sleeping .wake .select 0) = .next t ∧ t.csN = false) ∧
    (∃ t, exec .close (begin_ .uninit .close) = .next t ∧ t.busy = true) ∧
    (stagedBytes .sleep (at_ small .ready .sleep (.group .slpin .cmdByte) 0)).length ≤ 1 :=
  ⟨seen_next (by decide +kernel), seen_next (by decide +kernel), seen_next (by decide +kernel), seen_next (by decide +kernel),
    by decide +kernel⟩

/-- A flush step that changes DW, and one that stages the window's columns. -/
theorem wit_flushFrame :
    (∃ t, exec .flush (at_ small .flushing .flush .release 0 true) = .next t ∧
      (t.dw != (at_ small .flushing .flush .release 0 true).dw) = true) ∧
    (∃ t, exec .flush (at_ small .flushing .flush (.group .caset .params) 0 true) = .next t ∧ t.xfer.len = 4) :=
  ⟨seen_next (by decide +kernel), seen_next (by decide +kernel)⟩

theorem wit_lineOperations : State.reset.xfer.pending = false ∧
    { State.reset with xfer := { pending := true, len := 1 } }.xfer.pending = true := by decide +kernel

/-- The least and the greatest length, and the two refusals. -/
theorem wit_requestSends :
    let s := State.powerOn small 0
    s.xfer.pending = false ∧ 0 < ([7] : List Byte).length ∧ ([7] : List Byte).length ≤ s.params.tbufBytes ∧
    ([1, 2, 3, 4] : List Byte).length ≤ s.params.tbufBytes ∧ ([] : List Byte).length = 0 ∧
    s.params.tbufBytes < ([1, 2, 3, 4, 5] : List Byte).length := by decide +kernel

/-- A one-row window of a 2 x 2 panel with M = 4: four bytes, one chunk. -/
theorem wit_stream : let s := begin_ .ready .flush true
    s.dw.inPanel s.params = true ∧ s.params.wellFormed = true ∧ chunkCount s = 1 ∧ streamLength s.dw = 4 := by
  decide +kernel

/-- By its wire form a flush of two pixels delivers four bytes after RAMWR, and nothing runs together (R51). -/
theorem wit_panelReceives : let s := { begin_ .ready .flush true with pb := [(2, 0xF800), (3, 0x07E0)] }
    s.dw.inPanel s.params = true ∧ s.params.wellFormed = true ∧
      received false (flushEvents s) = [([0x2A], [0, 0, 0, 1]), ([0x2B], [0, 1, 0, 1]), ([0x2C], [0xF8, 0, 0x07, 0xE0])] := by
  decide +kernel

/-! ### Runs, invariants -/

theorem wit_resetMeetsInvariant : shared.wellFormed = true ∧ Inv (State.powerOn shared 3) :=
  ⟨by decide +kernel, inv_of_check false (by decide +kernel)⟩

theorem wit_initRunsToReady : let s := begin_ .uninit anInit
    Inv s ∧ s.sp = .run 1 .begin 0 ∧ decode (asmWords s) = .ok (anInit, []) ∧ s.state = .uninit ∧ s.closePending = false :=
  ⟨inv_of_check false (by decide +kernel), by decide +kernel⟩

/-- Also for the failing FLUSH: its first and its last transfer. -/
theorem wit_flushRuns : let s := begin_ .ready .flush true
    Inv s ∧ s.sp = .run 5 .begin 0 ∧ decode (asmWords s) = .ok (.flush, []) ∧ s.state = .ready ∧ s.closePending = false ∧
      s.dw.valid = true ∧ 0 < 5 + chunkCount s ∧ 5 < 5 + chunkCount s :=
  ⟨inv_of_check false (by decide +kernel), by decide +kernel⟩

theorem wit_sleepAndWakeRun :
    (let s := begin_ .ready .sleep
     Inv s ∧ s.sp = .run 6 .begin 0 ∧ decode (asmWords s) = .ok (.sleep, []) ∧ s.closePending = false ∧ s.state = .ready) ∧
    (let s := begin_ .sleeping .wake
     Inv s ∧ s.sp = .run 7 .begin 0 ∧ decode (asmWords s) = .ok (.wake, []) ∧ s.closePending = false ∧
       s.state = .sleeping) :=
  ⟨⟨inv_of_check false (by decide +kernel), by decide +kernel⟩, ⟨inv_of_check false (by decide +kernel), by decide +kernel⟩⟩

theorem wit_emptyFlush : let s := begin_ .ready .flush
    s.sp = .run 5 .begin 0 ∧ s.state = .ready ∧ s.dw.valid = false := by decide +kernel

theorem wit_everyCommandCompletes : Inv (begin_ .sleeping .wake) ∧ (begin_ .sleeping .wake).busy = true :=
  ⟨inv_of_check false (by decide +kernel), rfl⟩

/-- A WRITE_PIXEL at the far corner with DW empty, and the flush that follows it. -/
theorem wit_writeThenFlush :
    let s := begin_ .ready (.writePixel 0xF800 1 1)
    let u := { begin_ .ready .flush with dw := ⟨true, 1, 1, 1, 1⟩, pb := [(3, 0xF800)] }
    (Inv s ∧ s.sp = .run 2 .begin 0 ∧ s.state = .ready ∧ s.dw = Window.empty) ∧
    (∃ t, exec (.writePixel 0xF800 1 1) s = .next t ∧
      (t.result, u.params, u.dw, u.pb, u.draw) = (Code.ok, t.params, t.dw, t.pb, t.draw)) ∧
    (Inv u ∧ u.sp = .run 5 .begin 0 ∧ decode (asmWords u) = .ok (.flush, []) ∧ u.closePending = false ∧ u.state = .ready) := by
  refine ⟨⟨inv_of_check false (by decide +kernel), by decide +kernel⟩, ?_,
    ⟨inv_of_check false (by decide +kernel), by decide +kernel⟩⟩
  obtain ⟨t, h1, h2⟩ := seen_next
    (o := exec (.writePixel 0xF800 1 1) (begin_ .ready (.writePixel 0xF800 1 1)))
    (f := fun t => decide (t.result = .ok) && decide (t.params = small) && decide (t.dw = ⟨true, 1, 1, 1, 1⟩) &&
      decide (t.pb = [(3, 0xF800)]) && decide (t.draw = 0)) (v := true) (by decide +kernel)
  refine ⟨t, h1, ?_⟩
  simp only [Bool.and_eq_true, decide_eq_true_eq] at h2
  obtain ⟨⟨⟨⟨h3, h4⟩, h5⟩, h6⟩, h7⟩ := h2
  rw [h3, h4, h5, h6, h7]
  rfl

/-- A state that meets the invariant takes a step. -/
theorem wit_stepKeepsInvariant : let s := begin_ .ready .flush true
    Inv s ∧ ∃ t, step s = .next t ∧ t.state = .flushing :=
  ⟨inv_of_check false (by decide +kernel), seen_next (by decide +kernel)⟩

theorem wit_closedIsFinal : let s := begin_ .closed .flush
    Inv s ∧ s.state = .closed ∧ s.turns = [] ∧ ∃ t, step s = .next t ∧ t.result = .closedError :=
  ⟨inv_of_check false (by decide +kernel), rfl, rfl, seen_next (by decide +kernel)⟩

theorem wit_parametersNeverChange : ∃ t, step State.reset = .next t ∧ t.busy = false := seen_next (by decide +kernel)

theorem wit_dirtyWindow : let s := begin_ .ready (.clear 3)
    Inv s ∧ s.turns = [] ∧ (∃ t, step s = .next t ∧ (t.dw != s.dw) = true) ∧
      ∃ t, hostAccess (.write 0x0C 32 3) s = .next t ∧ t.intDone = false :=
  ⟨inv_of_check false (by decide +kernel), rfl, seen_next (by decide +kernel), seen_next (by decide +kernel)⟩

/-- A transfer outstanding at a chunk of a flush: a core step that leaves it, and its answer. -/
def transferring (p : Params) : State :=
  { at_ p .flushing .flush .chunk 0 true with xfer := { pending := true, len := 4 } }

theorem wit_transferBufferStable : Inv (transferring small) ∧ (transferring small).xfer.pending = true ∧
    (∃ t, step (transferring small) = .next t ∧ t.xfer.pending = true) ∧
    (∃ t, step { transferring small with turns := [⟨none, .transport .ok⟩] } = .next t ∧ t.xfer.pending = false) ∧
    Inv { transferring small with turns := [⟨none, .transport .ok⟩] } :=
  ⟨inv_of_check true (by decide +kernel), rfl, seen_next (by decide +kernel), seen_next (by decide +kernel),
    inv_of_check true (by decide +kernel)⟩

theorem wit_pixelsStable : let s := begin_ .ready .flush true
    Inv s ∧ s.busy = true ∧ decode (asmWords s) = .ok (.flush, []) ∧ s.turns = [] ∧
      ∃ t, step s = .next t ∧ t.state = .flushing :=
  ⟨inv_of_check false (by decide +kernel), rfl, by decide +kernel, rfl, seen_next (by decide +kernel)⟩

theorem wit_onlyInitWritesConfiguration : let s := begin_ .uninit anInit
    Inv s ∧ Move.core ≠ .blockReset ∧ (∃ t, move .core s = .next t ∧ (t.cfg != s.cfg) = true) ∧
      ∃ t, hostAccess (.read 0x1C 32) s = .next t ∧ t.rdata = 0 :=
  ⟨inv_of_check false (by decide +kernel), by decide, seen_next (by decide +kernel), seen_next (by decide +kernel)⟩

/-- SLEEP in its Delay hold. -/
def delaying : State := { at_ small .ready .sleep .postDelay 0 with delay := some 5 }
/-- SLEEP in its Acquire hold, on a shared bus. -/
def acquiring : State := { at_ shared .ready .sleep .acquire 0 with lockReq := true }

/-- CTRL with bit 1 clear, and with it set clause by clause. -/
theorem wit_closeRequestEffect : (1 : Word).getLsbD 1 = false ∧ (2 : Word).getLsbD 1 = true ∧
    (begin_ .closed .flush).state = .closed ∧
    (State.reset.state ≠ .closed ∧ State.reset.busy = false ∧ State.reset.asm.phase = .none) ∧
    ((imageState .ok).state ≠ .closed ∧ (imageState .ok).busy = false ∧ (imageState .ok).asm.phase ≠ .none) ∧
    (let s := transferring small
     s.state ≠ .closed ∧ s.busy = true ∧ s.delay = none ∧ (s.lockReq && !s.locked) = false) ∧
    (let s := delaying
     s.state ≠ .closed ∧ s.busy = true ∧ s.delay ≠ none ∧ s.xfer.pending = false) ∧
    (let s := acquiring
     s.state ≠ .closed ∧ s.busy = true ∧ s.lockReq = true ∧ s.locked = false ∧ s.xfer.pending = false) := by
  decide +kernel

/-- A close pending with a transfer outstanding, on a shared bus, and with none. -/
theorem wit_closeWaits :
    (let s := { transferring shared with closePending := true }
     Inv s ∧ s.closePending = true ∧ s.xfer.pending = true) ∧
    (let s := { at_ small .ready .sleep .select 0 with closePending := true }
     Inv s ∧ s.closePending = true ∧ s.xfer.pending = false) :=
  ⟨⟨inv_of_check true (by decide +kernel), by decide +kernel⟩, ⟨inv_of_check false (by decide +kernel), by decide +kernel⟩⟩

/-- No hold on; a core move in each hold; the answer of each. -/
theorem wit_stepRuns :
    (let s := begin_ .ready .flush true
     s.sp = .run 5 .begin 0 ∧ s.xfer.pending = false ∧ s.delay = none ∧ (s.lockReq && !s.locked) = false ∧
       s.closePending = false ∧ decode (asmWords s) = .ok (.flush, []) ∧ s.turns = []) ∧
    (let s := transferring small
     s.sp = .run 5 .chunk 0 ∧ s.closePending = false ∧ s.xfer.pending = true ∧ decode (asmWords s) = .ok (.flush, []) ∧
       seen (step { s with turns := [⟨none, .core⟩] }) (·.sp) = some s.sp ∧
       seen (step { s with turns := [⟨none, .transport .ok⟩] }) (·.sp) = some (.run 5 .deselect 0)) ∧
    (let s := delaying
     s.sp = .run 6 .postDelay 0 ∧ s.closePending = false ∧ s.delay ≠ none ∧ decode (asmWords s) = .ok (.sleep, []) ∧
       seen (step { s with turns := [⟨none, .core⟩] }) (fun t => (t.sp, t.trace == s.trace)) = some (s.sp, true) ∧
       seen (step { s with turns := [⟨none, .timer⟩] }) (·.state) = some .sleeping) ∧
    (let s := acquiring
     s.sp = .run 6 .acquire 0 ∧ s.closePending = false ∧ (s.lockReq && !s.locked) = true ∧
       decode (asmWords s) = .ok (.sleep, []) ∧ seen (step { s with turns := [⟨none, .core⟩] }) (·.sp) = some s.sp ∧
       seen (step { s with turns := [⟨none, .grant⟩] }) (·.locked) = some true) := by decide +kernel

/-- A step refused for each undefined access: outside the block, not 32 bits wide, not aligned. -/
theorem wit_noStepFaults :
    let s := fun a => { begin_ .ready .flush with turns := [⟨some a, .core⟩] }
    Inv (s (.read 0x40 32)) ∧ (s (.read 0x40 32)).held = none ∧
      step (s (.read 0x40 32)) = .refused .outsideBlock ∧ step (s (.write 0 16 0)) = .refused .undefinedAccess ∧
      step (s (.read 0x3D 32)) = .refused .undefinedAccess :=
  ⟨inv_of_check false (by decide +kernel), rfl, rfl, rfl, rfl⟩

theorem wit_blockReset : { begin_ .ready .flush with turns := [⟨none, .blockReset⟩] }.turns = ⟨none, .blockReset⟩ :: [] :=
  rfl

/-- Two states that differ in a pixel. -/
theorem wit_pixelValues : eraseData { begin_ .ready .flush with pb := [(0, 1)] } =
    eraseData { begin_ .ready .flush with pb := [(0, 2)] } := rfl

end Sys2Proof.Tests
end

/-!
PROOFS. The statements of 00_scope: how a turn reaches the core's step (O57), the command port (O14), and that nothing
changes the implementation parameters (O50).
-/

namespace Sys2Proof.Machine

/-! ## How a step reaches the core and the agents -/

/-- With an empty schedule the core moves [log 2]. -/
theorem step_of_turns_nil {s : State} (h : s.turns = []) : step s = coreStep s := by
  simp only [step, machineStep, h]

/-- The schedule's next turn is taken [log 2]. -/
theorem step_of_turns_cons {u : Turn} {rest : List Turn} {s : State} (h : s.turns = u :: rest) :
    step s = takeTurn u { s with turns := rest } := by
  simp only [step, machineStep, h]

/-- With no close pending a running command goes on (R270, R303). -/
theorem proceed_of_no_close {s : State} (hc : s.closePending = false) : proceed s = runCommand s := by
  simp only [proceed, hc, Bool.false_eq_true, false_and, if_false]

theorem transportAnswer_of_pending (a : Answer) {s : State} (h : s.xfer.pending = true) :
    transportAnswer a s = proceed (recordAnswer a s) := if_pos h

theorem timerAnswer_of_delay {s : State} (h : s.delay ≠ none) :
    timerAnswer s = proceed { s with delay := none, reply := some .ok } :=
  if_pos (Option.isSome_iff_ne_none.2 h)

theorem grantLock_of_request {s : State} (h : (s.lockReq && !s.locked) = true) :
    grantLock s = proceed { s with reply := some .ok } := if_pos h

/-- The three holds of the core (R20, R160). -/
theorem inHold_iff (s : State) :
    inHold s = true ↔ s.xfer.pending = true ∨ s.delay ≠ none ∨ (s.lockReq && !s.locked) = true := by
  simp only [inHold, inTimedHold, Bool.or_eq_true, Option.isSome_iff_ne_none]

theorem inHold_eq_false {s : State} (hx : s.xfer.pending = false) (hd : s.delay = none)
    (hl : (s.lockReq && !s.locked) = false) : inHold s = false := by
  simp only [inHold, inTimedHold, hx, hd, hl, Option.isSome_none, Bool.or_self]

/-- Out of a hold, with no close pending, the core runs the executing command (R270). -/
theorem coreStep_of_running {op : Byte} {st : SeqStep} {n : Nat} {s : State} (hsp : s.sp = .run op st n)
    (hc : s.closePending = false) (hh : inHold s = false) : coreStep s = runCommand s := by
  rw [coreStep_ready hsp hh, proceed_of_no_close hc]

/-- Settles O57: a step out of a hold is the core's, a hold's core step does nothing, and an awaited answer goes to the
decoded command by `proceed`. The turns taken off the schedule change neither SP nor the words that are decoded. -/
theorem stepRunsTheDecodedInstruction : Obligations.StepRunsTheDecodedInstruction := by
  intro s op st n hsp hc
  refine ⟨fun hx hd hl => ?running, fun hhold => ?holding, fun i rest more hdec => ?answered⟩
  case running =>
    have hh : inHold s = false := inHold_eq_false hx hd hl
    refine ⟨fun ht => ?_, fun i rest hdec => ⟨fun ht => ?_, fun more ht => ?_⟩⟩
    · rw [step_of_turns_nil ht, coreStep_of_running hsp hc hh]
    · rw [step_of_turns_nil ht, coreStep_ready hsp hh, proceed_decoded hc hdec]
    · rw [step_of_turns_cons ht]
      exact (coreStep_ready (s := { s with turns := more }) hsp hh).trans (proceed_decoded hc hdec)
  case holding =>
    have hh : inHold s = true := (inHold_iff s).2 hhold
    refine ⟨fun ht => ?_, fun more ht => ?_⟩
    · rw [step_of_turns_nil ht, coreStep_hold hsp hh hc]
    · rw [step_of_turns_cons ht]
      exact coreStep_hold (s := { s with turns := more }) hsp hh hc
  case answered =>
    refine ⟨fun a hx ht => ?_, fun hd ht => ?_, fun hl ht => ?_⟩ <;> rw [step_of_turns_cons ht]
    · exact (transportAnswer_of_pending a (s := { s with turns := more }) hx).trans (proceed_decoded hc hdec)
    · exact (timerAnswer_of_delay (s := { s with turns := more }) hd).trans (proceed_decoded hc hdec)
    · exact (grantLock_of_request (s := { s with turns := more }) hl).trans (proceed_decoded hc hdec)

/-! ## The command port -/

/-- A naturally aligned 32-bit store in the block reaches the register at its offset (R31, R87, R88). -/
theorem hostAccess_write_offset {off : Nat} (v : Word) (s : State) (hlt : off < 0x40) (h4 : off % 4 = 0) :
    hostAccess (.write (s.params.regBase + off) 32 v) s = writeReg off v s := by
  have hin : inBlock s.params (s.params.regBase + off) = true := by simpa [inBlock] using hlt
  have hdef : definedAccess s.params (s.params.regBase + off) 32 = true := by simpa [definedAccess] using h4
  simp only [hostAccess, guardAccess, hin, hdef, if_true, Nat.add_sub_cancel_left]

/-- A store to CMD is one to offset 0 (R31, R32). -/
theorem hostAccess_write_cmd (w : Word) (s : State) :
    hostAccess (.write s.params.regBase 32 w) s = writeCmd w s :=
  hostAccess_write_offset (off := 0) w s (by decide) (by decide)

theorem writeCmd_of_ready (w : Word) {s : State} (h : s.busy = false) : writeCmd w s = accept w s := by
  simp only [writeCmd, cmdReady, h, Bool.not_false, if_true]

theorem writeCmd_of_busy (w : Word) {s : State} (h : s.busy = true) :
    writeCmd w s = .next { s with held := some w } := by
  simp only [writeCmd, cmdReady, h, Bool.not_true, Bool.false_eq_true, if_false]

/-- The accesses that do not wait for the command port are the 32-bit stores to CTRL (R39). -/
theorem isCtrlStore_iff (p : Params) (a : Access) :
    isCtrlStore p a = true ↔ ∃ v, a = .write (p.regBase + 0x08) 32 v := by
  cases a with
  | read addr width => simp [isCtrlStore]
  | write addr width v =>
    rw [isCtrlStore, Bool.and_eq_true, decide_eq_true_iff, decide_eq_true_iff]
    simp [ctrlOffset]

/-- A HOST that holds no CMD write makes its access (R20). -/
theorem hostStep_of_not_held (a : Access) {s : State} (h : s.held = none) : hostStep a s = hostAccess a s := by
  simp only [hostStep, h, Option.isSome_none, Bool.false_and, Bool.false_eq_true, if_false]

/-- A CTRL store does not wait (R39). -/
theorem hostStep_of_ctrlStore {a : Access} {s : State} (h : isCtrlStore s.params a = true) :
    hostStep a s = hostAccess a s := by
  simp only [hostStep, h, Bool.not_true, Bool.and_false, Bool.false_eq_true, if_false]

/-- A HOST that holds a CMD write makes no other access (R20, R96) [log 8]. -/
theorem hostStep_of_held {a : Access} {w : Word} {s : State} (h : s.held = some w)
    (ha : isCtrlStore s.params a = false) : hostStep a s = .next s := by
  simp only [hostStep, h, ha, Option.isSome_some, Bool.not_false, Bool.and_self, if_true]

/-- An idle core whose port is ready accepts the held word (R32, R367). -/
theorem coreStep_of_idle_held {w : Word} {s : State} (hsp : s.sp = .idle) (hh : s.held = some w)
    (hb : s.busy = false) : coreStep s = accept w { s with held := none } := by
  simp only [coreStep, hsp, hh, cmdReady, hb, Bool.not_false, if_true]

/-- Settles O14: the CMD store by BUSY, the HOST's step by whether a word is held and the access is a CTRL store, and
the idle core's step. -/
theorem commandWordAcceptedOrHeld : Obligations.CommandWordAcceptedOrHeld := by
  intro s w
  refine ⟨fun hb => ?ready, fun hb => ?busy, fun hn a => hostStep_of_not_held a hn, fun hw => ⟨?waits, ?ctrl, ?idle⟩⟩
  case ready => rw [hostAccess_write_cmd, writeCmd_of_ready w hb]
  case busy => rw [hostAccess_write_cmd, writeCmd_of_busy w hb]
  case waits =>
    intro a ha
    have hctrl : isCtrlStore s.params a = false :=
      Bool.eq_false_iff.2 fun hc => ((isCtrlStore_iff s.params a).1 hc).elim ha
    have hstep : hostStep a s = .next s := hostStep_of_held hw hctrl
    exact ⟨hstep, fun m => congrArg (andThen · (move m)) hstep⟩
  case ctrl => exact fun v => hostStep_of_ctrlStore ((isCtrlStore_iff _ _).2 ⟨v, rfl⟩)
  case idle => exact fun ht hsp hb => (step_of_turns_nil ht).trans (coreStep_of_idle_held hsp hw hb)

/-! ## What an operation keeps -/

/-- A part of the state that every next state of an operation shares with the state the operation began in. -/
def Keeps {α : Type} (part : State → α) (f : State → Out) : Prop := ∀ ⦃s t : State⦄, f s = .next t → part t = part s

/-- An operation begun after an update that leaves `part` alone. -/
theorem Keeps.from_eq {α : Type} {part : State → α} {f : State → Out} {s t u : State} (hf : Keeps part f)
    (h : f u = .next t) (hu : part u = part s) : part t = part s := (hf h).trans hu

/-- What two operations keep, their sequence keeps. -/
theorem Keeps.andThen {α : Type} {part : State → α} {f : State → Out} {g : State → State → Out} (hf : Keeps part f)
    (hg : ∀ s, Keeps part (g s)) : Keeps part fun s => andThen (f s) (g s) := by
  intro s t h
  obtain ⟨u, hu, ht⟩ := andThen_eq_next.1 h
  exact (hg s ht).trans (hf hu)

/-- A named update keeps what it does not write. -/
theorem Keeps.next {α : Type} {part : State → α} {f : State → State} (h : ∀ s, part (f s) = part s) :
    Keeps part fun s => .next (f s) := by
  intro s t ht
  cases ht
  exact h s

/-! ## The frame of a command's steps

An executing command reaches nothing of what belongs to the environment, to the host's port or to the assembler: the
commands and their completion keep `commandFrame`. -/

/-- The fields no step of an executing command writes. -/
structure CommandFrame where
  params : Params
  turns : List Turn
  held : Option Word
  rdata : Word
  doneIe : Bool
  asm : Assembler
  draw : Nat

/-- A state's fields that no step of an executing command writes. -/
def commandFrame (s : State) : CommandFrame :=
  { params := s.params, turns := s.turns, held := s.held, rdata := s.rdata, doneIe := s.doneIe, asm := s.asm,
    draw := s.draw }

/-- An operation that stays within a command's reach. -/
abbrev KeepsFrame (f : State → Out) : Prop := Keeps commandFrame f

theorem params_of_commandFrame {s t : State} (h : commandFrame t = commandFrame s) : t.params = s.params :=
  congrArg CommandFrame.params h

theorem lineOp_keepsFrame (line : State → State) (h : ∀ s, commandFrame (line s) = commandFrame s) :
    KeepsFrame (lineOp line) := by
  intro s t ht
  obtain ⟨-, rfl⟩ := lineOp_eq_next.1 ht
  exact h s

theorem storePixel_keepsFrame (i : Nat) (v : Half) : KeepsFrame (storePixel i v) := by
  intro s t h
  obtain ⟨-, rfl⟩ := storePixel_eq_next.1 h
  rfl

theorem requestTransfer_keepsFrame (bytes : List Byte) : KeepsFrame (requestTransfer bytes) := by
  intro s t h
  obtain ⟨-, rfl⟩ := requestTransfer_eq_next.1 h
  rfl

theorem delayStep_keepsFrame (ms : Half) {after : State → Out} (ha : KeepsFrame after) :
    KeepsFrame (delayStep ms after) := by
  intro s t h
  rcases delayStep_eq_next h with ⟨-, h⟩ | ⟨-, -, rfl⟩ | ⟨-, -, h⟩
  · exact ha.from_eq h rfl
  · rfl
  · exact ha.from_eq h rfl

theorem enterDelay_keepsFrame (ms : Half) (hold : SeqStep) (n : Nat) {after : State → Out} (ha : KeepsFrame after) :
    KeepsFrame (enterDelay ms hold n after) := by
  intro s t h
  rcases enterDelay_eq_next h with ⟨-, h⟩ | ⟨-, rfl⟩
  · exact ha h
  · rfl

theorem acquireStep_keepsFrame {after : State → Out} (ha : KeepsFrame after) : KeepsFrame (acquireStep after) := by
  intro s t h
  rcases acquireStep_eq_next h with ⟨-, -, rfl⟩ | ⟨-, h⟩
  · rfl
  · exact ha.from_eq h rfl

theorem releaseStep_keepsFrame {after : State → Out} (ha : KeepsFrame after) : KeepsFrame (releaseStep after) :=
  fun s _ h => ha.from_eq (u := releaseLock s) h rfl

theorem deselectStep_keepsFrame (st : SeqStep) : KeepsFrame (deselectStep st) := by
  intro s t h
  obtain ⟨-, rfl⟩ := deselectStep_eq_next h
  rfl

theorem checked_keepsFrame (i : Instr) {body : State → Out} (hb : KeepsFrame body) : KeepsFrame (checked i body) := by
  intro s t h
  rcases checked_eq_next h with ⟨-, h⟩ | ⟨-, rfl⟩
  · exact hb h
  · rfl

theorem atBegin_keepsFrame {body : State → Out} (hb : KeepsFrame body) : KeepsFrame (atBegin body) :=
  fun _ _ h => hb (atBegin_eq_next h).2

theorem finish_keepsFrame (st : DriverState) (c : Code) : KeepsFrame (finish st c) := Keeps.next fun _ => rfl

theorem goto_keepsFrame (st : SeqStep) (n : Nat) : KeepsFrame fun s => .next (goto st n s) := Keeps.next fun _ => rfl

theorem groupStep_keepsFrame (g : Group) (m : GroupStep) (n : Nat) (cmd : Byte) (params : List Byte)
    {onOk : State → Out} (hk : KeepsFrame onOk) : KeepsFrame (groupStep g m n cmd params onOk) := by
  intro s t h
  rcases groupStep_eq_next h with ⟨-, -, rfl⟩ | ⟨-, -, rfl⟩ | ⟨-, -, h⟩ | ⟨-, -, h⟩ | ⟨-, -, -, rfl⟩ | ⟨-, -, h⟩ |
    ⟨-, -, rfl⟩
  · rfl
  · rfl
  · exact requestTransfer_keepsFrame _ h
  · exact requestTransfer_keepsFrame _ h
  · rfl
  · exact hk.from_eq h rfl
  · rfl

theorem selectStep_keepsFrame {after : State → Out} (ha : KeepsFrame after) :
    KeepsFrame fun s => andThen (lineOp selectLine s) after :=
  (lineOp_keepsFrame selectLine fun _ => rfl).andThen fun _ => ha

theorem initEntryAt_keepsFrame (n : Nat) : KeepsFrame (initEntryAt n) := by
  intro s t h
  rcases initEntryAt_eq_next h with ⟨-, rfl⟩ | ⟨-, rfl⟩ <;> rfl

theorem initGroup_keepsFrame (m : GroupStep) (n : Nat) : KeepsFrame (initGroup m n) := by
  intro s t h
  unfold initGroup at h
  split at h
  · cases h
  · split at h
    · exact delayStep_keepsFrame _ (initEntryAt_keepsFrame _) h
    · exact groupStep_keepsFrame _ _ _ _ _ (enterDelay_keepsFrame _ _ _ (initEntryAt_keepsFrame _)) h

theorem initOpen_keepsFrame : KeepsFrame initOpen := Keeps.next fun _ => rfl

theorem initBegin_keepsFrame (orient : BitVec 2) (bgr inv : Bool) : KeepsFrame (initBegin orient bgr inv) :=
  Keeps.next fun _ => rfl

/-- The arms in INIT's own order (R272): its check, the reset pulse and recovery, the frame with the table's groups, the
end of the frame, the clean-up, and a pointer that is no step of INIT. -/
theorem execInit_keepsFrame (resetMs : Half) (orient : BitVec 2) (bgr inv : Bool) :
    KeepsFrame (execInit resetMs orient bgr inv) := by
  intro s t h
  unfold execInit at h
  split at h
  case h_1 => exact checked_keepsFrame _ (initBegin_keepsFrame _ _ _) h
  case h_2 =>
    exact (lineOp_keepsFrame resetLowLine fun _ => rfl).andThen
      (fun _ => enterDelay_keepsFrame _ _ _ (goto_keepsFrame .resetHigh 0)) h
  case h_3 => exact delayStep_keepsFrame _ (goto_keepsFrame _ _) h
  case h_4 =>
    exact (lineOp_keepsFrame resetHighLine fun _ => rfl).andThen
      (fun _ => enterDelay_keepsFrame _ _ _ initOpen_keepsFrame) h
  case h_5 => exact delayStep_keepsFrame _ initOpen_keepsFrame h
  case h_6 => exact acquireStep_keepsFrame (goto_keepsFrame _ _) h
  case h_7 => exact selectStep_keepsFrame (initEntryAt_keepsFrame _) h
  case h_8 => exact initGroup_keepsFrame _ _ h
  case h_9 => exact deselectStep_keepsFrame _ h
  case h_10 => exact releaseStep_keepsFrame (enterDelay_keepsFrame _ _ _ (finish_keepsFrame _ _)) h
  case h_11 => exact delayStep_keepsFrame _ (finish_keepsFrame _ _) h
  case h_12 => exact deselectStep_keepsFrame _ h
  case h_13 => exact releaseStep_keepsFrame (finish_keepsFrame _ _) h
  case h_14 => cases h

theorem flushBegin_keepsFrame : KeepsFrame flushBegin := by
  intro s t h
  simp only [flushBegin] at h
  split_ifs at h <;> cases h <;> rfl

theorem flushChunkAt_keepsFrame (k : Nat) : KeepsFrame (flushChunkAt k) := by
  intro s t h
  rcases flushChunkAt_eq_next h with ⟨-, rfl⟩ | ⟨-, rfl⟩ <;> rfl

theorem pixelModeStep_keepsFrame : KeepsFrame pixelModeStep := by
  intro s t h
  obtain ⟨u, hu, ht⟩ := andThen_eq_next.1 h
  exact (flushChunkAt_keepsFrame 0).from_eq ht ((lineOp_keepsFrame dataModeLine fun _ => rfl).from_eq hu rfl)

theorem chunkStep_keepsFrame (k : Nat) : KeepsFrame (chunkStep k) := by
  intro s t h
  obtain ⟨-, ⟨-, h⟩ | ⟨-, h⟩ | ⟨-, rfl⟩⟩ := chunkStep_eq_next h
  · exact (requestTransfer_keepsFrame _).from_eq h rfl
  · exact (flushChunkAt_keepsFrame _).from_eq h rfl
  · rfl

/-- FLUSH's successful end, which empties DW (R279). -/
theorem flushEnd_keepsFrame : KeepsFrame fun t => finish .ready .ok { t with dw := Window.empty } :=
  fun _ _ h => (finish_keepsFrame _ _).from_eq h rfl

/-- The arms in FLUSH's own order (R279): its check, the frame's opening, the three groups of the window, the pixels, the
end of the frame, the clean-up, and a pointer that is no step of FLUSH. -/
theorem execFlush_keepsFrame : KeepsFrame execFlush := by
  intro s t h
  unfold execFlush at h
  split at h
  case h_1 => exact checked_keepsFrame _ flushBegin_keepsFrame h
  case h_2 => exact acquireStep_keepsFrame (goto_keepsFrame _ _) h
  case h_3 => exact selectStep_keepsFrame (goto_keepsFrame _ _) h
  case h_4 => exact groupStep_keepsFrame _ _ _ _ _ (goto_keepsFrame _ _) h
  case h_5 => exact groupStep_keepsFrame _ _ _ _ _ (goto_keepsFrame _ _) h
  case h_6 => exact groupStep_keepsFrame _ _ _ _ _ (goto_keepsFrame _ _) h
  case h_7 => exact pixelModeStep_keepsFrame h
  case h_8 => exact chunkStep_keepsFrame _ h
  case h_9 => exact deselectStep_keepsFrame _ h
  case h_10 => exact releaseStep_keepsFrame flushEnd_keepsFrame h
  case h_11 => exact deselectStep_keepsFrame _ h
  case h_12 => exact releaseStep_keepsFrame (finish_keepsFrame _ _) h
  case h_13 => cases h

theorem complete_keepsFrame (c : Code) : KeepsFrame fun s => .next (complete c s) := Keeps.next fun _ => rfl

/-- The arms in SLEEP's own order (R289): its check, the one-group frame, the delay, the clean-up, and a pointer that is no
step of SLEEP. -/
theorem execSleep_keepsFrame : KeepsFrame execSleep := by
  intro s t h
  unfold execSleep at h
  split at h
  case h_1 => exact checked_keepsFrame _ (goto_keepsFrame _ _) h
  case h_2 => exact acquireStep_keepsFrame (goto_keepsFrame _ _) h
  case h_3 => exact selectStep_keepsFrame (goto_keepsFrame _ _) h
  case h_4 => exact groupStep_keepsFrame _ _ _ _ _ (goto_keepsFrame _ _) h
  case h_5 => exact deselectStep_keepsFrame _ h
  case h_6 => exact releaseStep_keepsFrame (enterDelay_keepsFrame _ _ _ (finish_keepsFrame _ _)) h
  case h_7 => exact delayStep_keepsFrame _ (finish_keepsFrame _ _) h
  case h_8 => exact deselectStep_keepsFrame _ h
  case h_9 => exact releaseStep_keepsFrame (complete_keepsFrame _) h
  case h_10 => cases h

/-- The arms in WAKE's own order (R294), the same as SLEEP's with its own command byte and delay. -/
theorem execWake_keepsFrame : KeepsFrame execWake := by
  intro s t h
  unfold execWake at h
  split at h
  case h_1 => exact checked_keepsFrame _ (goto_keepsFrame _ _) h
  case h_2 => exact acquireStep_keepsFrame (goto_keepsFrame _ _) h
  case h_3 => exact selectStep_keepsFrame (goto_keepsFrame _ _) h
  case h_4 => exact groupStep_keepsFrame _ _ _ _ _ (goto_keepsFrame _ _) h
  case h_5 => exact deselectStep_keepsFrame _ h
  case h_6 => exact releaseStep_keepsFrame (enterDelay_keepsFrame _ _ _ (finish_keepsFrame _ _)) h
  case h_7 => exact delayStep_keepsFrame _ (finish_keepsFrame _ _) h
  case h_8 => exact deselectStep_keepsFrame _ h
  case h_9 => exact releaseStep_keepsFrame (complete_keepsFrame _) h
  case h_10 => cases h

/-- The arms in CLOSE's own order (R299): its check, Deselect, Release, ResetHigh, and a pointer that is no step of CLOSE. -/
theorem execClose_keepsFrame : KeepsFrame execClose := by
  intro s t h
  unfold execClose at h
  split at h
  case h_1 => exact checked_keepsFrame _ (goto_keepsFrame _ _) h
  case h_2 => exact deselectStep_keepsFrame _ h
  case h_3 => exact releaseStep_keepsFrame (goto_keepsFrame _ _) h
  case h_4 => exact (lineOp_keepsFrame resetHighLine fun _ => rfl).andThen (fun _ => finish_keepsFrame _ _) h
  case h_5 => cases h

theorem execWritePixel_keepsFrame (color x y : Half) : KeepsFrame (execWritePixel color x y) := by
  refine atBegin_keepsFrame (checked_keepsFrame _ fun s t h => ?_)
  obtain ⟨u, hu, ht⟩ := andThen_eq_next.1 h
  have hframe : commandFrame u = commandFrame s := storePixel_keepsFrame _ _ hu
  cases ht
  exact hframe

theorem execDrawImage_keepsFrame (x y w h : Half) : KeepsFrame (execDrawImage x y w h) := by
  refine atBegin_keepsFrame fun s t ht => ?_
  split_ifs at ht <;> cases ht <;> rfl

theorem execClear_keepsFrame (color : Half) : KeepsFrame (execClear color) :=
  atBegin_keepsFrame (checked_keepsFrame _ (Keeps.next fun _ => rfl))

/-- No step of a command writes a field of its frame. -/
theorem exec_keepsFrame (i : Instr) : KeepsFrame (exec i) := by
  cases i with
  | init resetMs orient bgr inv => exact execInit_keepsFrame resetMs orient bgr inv
  | writePixel color x y => exact execWritePixel_keepsFrame color x y
  | drawImage x y w h => exact execDrawImage_keepsFrame x y w h
  | clear color => exact execClear_keepsFrame color
  | flush => exact execFlush_keepsFrame
  | sleep => exact execSleep_keepsFrame
  | wake => exact execWake_keepsFrame
  | close => exact execClose_keepsFrame

theorem runCommand_keepsFrame : KeepsFrame runCommand := by
  intro s t h
  rcases runCommand_eq_next h with ⟨i, rest, -, h⟩ | ⟨e, op, n, -, -, rfl⟩
  · exact exec_keepsFrame i h
  · rfl

/-- Going on with a command, abandonment included, keeps the command's frame. -/
theorem proceed_keepsFrame : KeepsFrame proceed := by
  intro s t h
  rcases proceed_eq_next h with ⟨-, -, rfl⟩ | ⟨-, h⟩
  · rfl
  · exact runCommand_keepsFrame h

/-! ## The parameters -/

theorem proceed_keeps_params : Keeps State.params proceed :=
  fun _ _ h => params_of_commandFrame (proceed_keepsFrame h)

theorem drawPixel_keeps_params (p : Half) : Keeps State.params (drawPixel p) := by
  intro s t h
  rcases drawPixel_eq_next h with ⟨-, rfl⟩ | ⟨-, -, rfl⟩ | ⟨-, -, u, hu, rfl⟩
  · rfl
  · rfl
  · have hparams : u.params = s.params := params_of_commandFrame (storePixel_keepsFrame _ _ hu)
    exact hparams

theorem drawData_keeps_params (w : Word) : Keeps State.params (drawData w) :=
  (drawPixel_keeps_params _).andThen fun _ => drawPixel_keeps_params _

theorem acceptHeader_params (w : Word) (s : State) : (acceptHeader w s).params = s.params := by
  unfold acceptHeader
  dsimp only
  split <;> rfl

theorem acceptOperand_params (w : Word) (s : State) : (acceptOperand w s).params = s.params := by
  unfold acceptOperand
  dsimp only
  split_ifs <;> rfl

theorem acceptData_keeps_params (w : Word) : Keeps State.params (acceptData w) := by
  intro s t h
  obtain ⟨u, hu, rfl⟩ := acceptData_eq_next h
  have hparams : u.params = s.params := drawData_keeps_params w hu
  split_ifs <;> exact hparams

theorem accept_keeps_params (w : Word) : Keeps State.params (accept w) := by
  intro s t h
  rcases accept_eq_next h with ⟨-, rfl⟩ | ⟨-, rfl⟩ | ⟨-, h⟩
  · exact acceptHeader_params w s
  · exact acceptOperand_params w s
  · exact acceptData_keeps_params w h

theorem closeRequest_params (s : State) : (closeRequest s).params = s.params := by
  rcases closeRequest_cases s with ⟨-, h⟩ | ⟨-, -, -, h⟩ | ⟨-, -, h⟩ | ⟨-, -, h⟩ | ⟨-, -, h⟩ <;> rw [h] <;> rfl

theorem writeCtrl_params (w : Word) (s : State) : (writeCtrl w s).params = s.params := by
  unfold writeCtrl
  dsimp only
  split_ifs
  · exact closeRequest_params _
  · rfl

theorem writeCmd_keeps_params (w : Word) : Keeps State.params (writeCmd w) := by
  intro s t h
  rcases writeCmd_eq_next h with ⟨-, h⟩ | ⟨-, rfl⟩
  · exact accept_keeps_params w h
  · rfl

theorem writeReg_keeps_params (off : Nat) (w : Word) : Keeps State.params (writeReg off w) := by
  intro s t h
  rcases writeReg_eq_next h with ⟨-, h⟩ | ⟨-, rfl⟩ | ⟨-, rfl⟩ | ⟨-, -, -, rfl⟩
  · exact writeCmd_keeps_params w h
  · exact writeCtrl_params w s
  · rfl
  · rfl

/-- No host access reaches the parameters (R31, R44, R47). -/
theorem hostAccess_keeps_params (a : Access) : Keeps State.params (hostAccess a) := by
  intro s t h
  cases a with
  | read addr width =>
    simp only [hostAccess] at h
    obtain ⟨-, -, h⟩ := guardAccess_eq_next h
    cases h
    rfl
  | write addr width v =>
    simp only [hostAccess] at h
    obtain ⟨-, -, h⟩ := guardAccess_eq_next h
    exact writeReg_keeps_params _ v h

theorem hostStep_keeps_params (a : Access) : Keeps State.params (hostStep a) := by
  intro s t h
  rcases hostStep_eq_next h with ⟨-, -, rfl⟩ | ⟨-, h⟩
  · rfl
  · exact hostAccess_keeps_params a h

theorem coreStep_keeps_params : Keeps State.params coreStep := by
  intro s t h
  rcases coreStep_eq_next h with rfl | ⟨w, -, -, -, h⟩ | ⟨op, st, n, -, -, -, h⟩
  · rfl
  · exact (accept_keeps_params w).from_eq h rfl
  · exact proceed_keeps_params h

/-- An answer that is waited for hands over to the command, and any other changes nothing (R170, R174, R176). -/
theorem answered_keeps_params {c : Prop} [Decidable c] {s t u : State}
    (h : (if c then proceed u else .next s) = .next t) (hu : u.params = s.params) : t.params = s.params := by
  split_ifs at h
  · exact proceed_keeps_params.from_eq h hu
  · cases h
    rfl

theorem transportAnswer_keeps_params (a : Answer) : Keeps State.params (transportAnswer a) :=
  fun s _ h => answered_keeps_params (u := recordAnswer a s) h rfl

theorem timerAnswer_keeps_params : Keeps State.params timerAnswer :=
  fun s _ h => answered_keeps_params (u := { s with delay := none, reply := some .ok }) h rfl

theorem grantLock_keeps_params : Keeps State.params grantLock :=
  fun s _ h => answered_keeps_params (u := { s with reply := some .ok }) h rfl

theorem move_keeps_params (m : Move) : Keeps State.params (move m) := by
  cases m with
  | rest => exact Keeps.next fun _ => rfl
  | core => exact coreStep_keeps_params
  | transport a => exact transportAnswer_keeps_params a
  | timer => exact timerAnswer_keeps_params
  | grant => exact grantLock_keeps_params
  | lateAnswer => exact Keeps.next fun _ => rfl
  | blockReset => exact Keeps.next fun _ => rfl

theorem takeTurn_keeps_params (u : Turn) : Keeps State.params (takeTurn u) := by
  obtain ⟨host, m⟩ := u
  cases host with
  | none => exact move_keeps_params m
  | some a => exact (hostStep_keeps_params a).andThen fun _ => move_keeps_params m

/-- Settles O50: the commands by their frame, and the command port, the host's accesses, the agents' answers and block
reset one by one. -/
theorem parametersNeverChange : Obligations.ParametersNeverChange := by
  intro s t h
  rcases step_eq_next h with ⟨-, h⟩ | ⟨u, rest, -, h⟩
  · exact coreStep_keeps_params h
  · exact (takeTurn_keeps_params u).from_eq h rfl

end Sys2Proof.Machine

/-!
PROOFS. The invariant. What every micro-operation and request of a command does to it: the rules of the settled state, the
rules of the three holds, and for each step of each command the state it leads to. A step that leads to a state neither
faults nor is refused, so the same lemmas serve O47 and O48.
-/

namespace Sys2Proof.Machine

/-! ## Outcomes that lead to a good state -/

/-- The outcome is a next state with property `P`: neither a fault nor a refusal. -/
def Leads (P : State → Prop) (o : Out) : Prop := ∃ t, o = .next t ∧ P t

theorem Leads.next {P : State → Prop} {s : State} (h : P s) : Leads P (.next s) := ⟨s, rfl, h⟩

theorem Leads.andThen {P Q : State → Prop} {o : Out} {f : State → Out} (ho : Leads P o)
    (hf : ∀ s, P s → Leads Q (f s)) : Leads Q (andThen o f) := by
  obtain ⟨s, rfl, hs⟩ := ho
  exact hf s hs

/-- The next state of an outcome that leads to `P` has `P`. -/
theorem Leads.of_eq_next {P : State → Prop} {o : Out} {t : State} (ho : Leads P o) (h : o = .next t) : P t := by
  obtain ⟨u, hu, hP⟩ := ho
  cases hu.symm.trans h
  exact hP

/-! ## Between two micro-operations

`Settled` is the invariant's part that does not speak of SP, in a state with no request outstanding: the levels and
whether the frame is armed are written out, so that each micro-operation has one rule that says how it moves them. -/

/-- No request is outstanding, the lines cs_n, rst_n and LOCKED are at `lv`, and the trace ends at those levels with a
command byte sent in the present frame or not (`armed`). -/
structure Settled (lv : Bool × Bool × Bool) (armed : Bool) (s : State) : Prop where
  params : s.params.wellFormed = true
  pbForm : s.pb.wf = true
  pbRange : ∀ c ∈ s.pb, c.1 < pbSize s.params
  tbForm : s.tb.wf = true
  tbRange : ∀ c ∈ s.tb, c.1 < s.params.tbufBytes
  window : (s.dw.valid = true ∧ s.dw.inPanel s.params = true) ∨ s.dw = Window.empty
  noReply : s.reply = none
  noTransfer : s.xfer.pending = false
  noDelay : s.delay = none
  noClose : s.closePending = false
  asmPhase : s.asm.phase = .none
  levels : (s.csN, s.rstN, s.locked) = lv
  lock : s.lockReq = (s.locked && s.params.sharedBus)
  wire : readTrace s.params.sharedBus .start s.trace =
    some { cs := s.csN, rst := s.rstN, locked := s.locked && s.params.sharedBus, armed := armed }

variable {lv : Bool × Bool × Bool} {armed : Bool} {s : State} {i : Instr} {st : SeqStep} {n : Nat}

/-- The trace of a settled state, one event later. -/
theorem Settled.wire_append (h : Settled lv armed s) (es : List Event) :
    readTrace s.params.sharedBus .start (s.trace ++ es) = readTrace s.params.sharedBus
      { cs := s.csN, rst := s.rstN, locked := s.locked && s.params.sharedBus, armed := armed } es := by
  rw [readTrace_append, h.wire]
  rfl

theorem Settled.selectLine (h : Settled (true, true, true) armed s) :
    Settled (false, true, true) false (selectLine s) := by
  obtain ⟨hcs, hrst, hlock⟩ : s.csN = true ∧ s.rstN = true ∧ s.locked = true := by simpa using h.levels
  exact { h with
    levels := by simp [hrst, hlock]
    wire := (h.wire_append _).trans (by simp [hcs, hrst, hlock, readTrace, WireLevels.after]) }

theorem Settled.deselectLine {cs rst lk : Bool} (h : Settled (cs, rst, lk) armed s) :
    Settled (true, rst, lk) armed (deselectLine s) := by
  obtain ⟨hcs, hrst, hlock⟩ : s.csN = cs ∧ s.rstN = rst ∧ s.locked = lk := by simpa using h.levels
  exact { h with
    levels := by simp [hrst, hlock]
    wire := (h.wire_append _).trans (by cases cs <;> simp [hcs, readTrace, WireLevels.after]) }

theorem Settled.releaseLock {rst lk : Bool} (h : Settled (true, rst, lk) armed s) :
    Settled (true, rst, false) armed (releaseLock s) := by
  obtain ⟨hcs, hrst, hlock⟩ : s.csN = true ∧ s.rstN = rst ∧ s.locked = lk := by simpa using h.levels
  exact { h with
    levels := by simp [hcs, hrst]
    lock := by simp [h.lock]
    wire := (h.wire_append _).trans (by
      cases hu : (s.locked && s.params.sharedBus) with
      | false => simp [readTrace]
      | true =>
        obtain ⟨-, hb⟩ := (Bool.and_eq_true ..).mp hu
        simp [hb, hcs, readTrace, WireLevels.after]) }

theorem Settled.resetLowLine {rst lk : Bool} (h : Settled (true, rst, lk) armed s) :
    Settled (true, false, lk) armed (resetLowLine s) := by
  obtain ⟨hcs, hrst, hlock⟩ : s.csN = true ∧ s.rstN = rst ∧ s.locked = lk := by simpa using h.levels
  exact { h with
    levels := by simp [hcs, hlock]
    wire := (h.wire_append _).trans (by cases rst <;> simp [hcs, hrst, readTrace, WireLevels.after]) }

theorem Settled.resetHighLine {rst lk : Bool} (h : Settled (true, rst, lk) armed s) :
    Settled (true, true, lk) armed (resetHighLine s) := by
  obtain ⟨hcs, hrst, hlock⟩ : s.csN = true ∧ s.rstN = rst ∧ s.locked = lk := by simpa using h.levels
  exact { h with
    levels := by simp [hcs, hlock]
    wire := (h.wire_append _).trans (by cases rst <;> simp [hcs, hrst, readTrace, WireLevels.after]) }

theorem Settled.cmdModeLine (h : Settled lv armed s) : Settled lv armed (cmdModeLine s) := { h with }

theorem Settled.dataModeLine (h : Settled lv armed s) : Settled lv armed (dataModeLine s) := { h with }

/-! ## The sequence pointer at a step -/

/-- Command `i` has the step `st` with counter `n`, and STATE and DW are what that step needs (R34, R271, R279). -/
def Names (i : Instr) (st : SeqStep) (n : Nat) (s : State) : Bool :=
  stepOf i s st n && stateAt i st s.state && (st == .begin || i != .flush || s.dw.valid)

/-- What the invariant says of SP at a step of a legal command. -/
theorem commandOk_decoded {op : Byte} {rest : List Word} (hsp : s.sp = .run op st n)
    (hd : decode (asmWords s) = .ok (i, rest)) : commandOk s = true ↔
      (op = opField s.asm.hdr ∧ s.asm.phase = .none) ∧ Names i st n s = true ∧ (op ≠ 3 ∨ verdictOk s = true) := by
  simp [commandOk, hsp, hd, Names, and_assoc]

/-- What the invariant says of SP at a step of an illegal command: it is its first, which completes it (R130). -/
theorem commandOk_illegal {op : Byte} {e : DecodeError} (hsp : s.sp = .run op st n)
    (hd : decode (asmWords s) = .error e) : commandOk s = true ↔
      (op = opField s.asm.hdr ∧ s.asm.phase = .none) ∧ (st = .begin ∧ restingState s.state = true) ∧
        ((∃ op', e = .reservedOpcode op') ∨ (∃ op', e = .reservedBits op') ∧ (op ≠ 3 ∨ s.asm.verdict ≠ .ok)) := by
  cases e <;> simp [commandOk, hsp, hd, and_assoc]

/-- What BUSY and SP and ASM are while command `i`, which is no DRAW_IMAGE, executes. -/
structure Executing (i : Instr) (s : State) : Prop where
  busy : s.busy = true
  sp : ∃ st n, s.sp = .run (opField s.asm.hdr) st n
  decoded : ∃ rest, decode (asmWords s) = .ok (i, rest)
  notImage : i.opcode ≠ 3

/-- A command that has come to its next step meets the invariant there. -/
theorem inv_goto (h : Settled (stepLevels st) armed s) (he : Executing i s) (hn : Names i st n s = true)
    (hmode : ∀ b, stepMode st = some b → s.dc = b) (harm : stepArmed st = true → armed = true) :
    Inv (goto st n s) := by
  obtain ⟨st₀, n₀, hsp⟩ := he.sp
  obtain ⟨rest, hd⟩ := he.decoded
  have hsp' : (goto st n s).sp = .run (opField s.asm.hdr) st n := by simp [hsp]
  have hop : opField s.asm.hdr ≠ 3 := decode_ok_opcode hd ▸ he.notImage
  exact {
    params := h.params
    pbForm := h.pbForm
    pbRange := h.pbRange
    tbForm := h.tbForm
    tbRange := h.tbRange
    window := h.window
    noReply := h.noReply
    busy := by rw [hsp']; exact he.busy
    levels := by rw [hsp']; exact h.levels
    lockShared := fun hl => by have := h.lock; simp_all
    lockKept := fun hl hb => by have := h.lock; simp_all
    lockWait := fun hl hu => by have := h.lock; simp_all
    transfer := fun ht => by simp [h.noTransfer] at ht
    oneByte := fun ht => by simp [h.noTransfer] at ht
    mode := by rw [hsp']; exact hmode
    delaying := fun ms hms => by simp [h.noDelay] at hms
    closing := fun hc => by simp [h.noClose] at hc
    assembler := by simp [assemblerOk, h.asmPhase]
    command := (commandOk_decoded (s := goto st n s) hsp' hd).2 ⟨⟨rfl, h.asmPhase⟩, hn, .inl hop⟩
    notBoth := fun _ => h.asmPhase
    wire := ⟨armed, h.wire, by rw [hsp']; exact harm⟩ }

/-- A command that completes with the lines and the lock at rest meets the invariant. -/
theorem inv_complete (c : Code) (h : Settled (true, true, false) armed s) (hst : restingState s.state = true) :
    Inv (complete c s) where
  params := h.params
  pbForm := h.pbForm
  pbRange := h.pbRange
  tbForm := h.tbForm
  tbRange := h.tbRange
  window := h.window
  noReply := h.noReply
  busy := rfl
  levels := h.levels
  lockShared hl := by have := h.lock; simp_all
  lockKept hl hb := by have := h.lock; simp_all
  lockWait hl hu := by have := h.lock; simp_all
  transfer ht := by simp [h.noTransfer] at ht
  oneByte ht := by simp [h.noTransfer] at ht
  mode b hb := by simp [spStep] at hb
  delaying ms hms := by simp [h.noDelay] at hms
  closing hc := by simp [h.noClose] at hc
  assembler := by simp [assemblerOk, h.asmPhase]
  command := hst
  notBoth _ := h.asmPhase
  wire := ⟨armed, h.wire, fun ha => by simp [spStep] at ha⟩

/-! ## Requests: the three holds -/

/-- A step at which the core waits for an answer of TRANSPORT, TIMER or ARBITER (R170, R174, R176). -/
def awaits (st : SeqStep) : Bool := (stepMode st).isSome || stepDelays st || st == .acquire

/-- A request of a transfer that fits its step meets the invariant (R84, R161, R170, R219). -/
theorem inv_request {op : Byte} {b : Bool} {bytes : List Byte} (h : Inv s) (hsp : s.sp = .run op st n)
    (hst : stepMode st = some b) (hx : s.xfer.pending = false) (hpos : 0 < bytes.length)
    (hfit : bytes.length ≤ s.params.tbufBytes) (hone : b = false → bytes.length = 1) :
    Leads Inv (requestTransfer bytes s) := by
  refine ⟨_, requestTransfer_eq_next.2 ⟨⟨hx, hpos, hfit⟩, rfl⟩, ?_⟩
  have hmode : s.dc = b := h.mode b (by rw [hsp]; exact hst)
  exact { h with
    tbForm := stageFrom_wf bytes 0 h.tbForm
    tbRange := stageFrom_below bytes (by simpa using hfit) h.tbRange
    transfer := fun _ => ⟨by simp [hsp, spStep, hst], hpos, hfit⟩
    oneByte := fun _ hdc => hone (hmode ▸ hdc) }

theorem awaits_cmdMode (g : Group) : awaits (.group g .cmdMode) = false := by cases g <;> rfl
theorem awaits_dataMode (g : Group) : awaits (.group g .dataMode) = false := by cases g <;> rfl

/-- A request of a delay at a step that has one meets the invariant (R174). -/
theorem inv_requestDelay {op : Byte} {ms : Half} (h : Inv s) (hsp : s.sp = .run op st n) (hst : stepDelays st = true)
    (hc : s.closePending = false) (hms : ms ≠ 0) : Inv (requestDelay ms s) := by
  obtain ⟨armed, hwire, harm⟩ := h.wire
  have hms' : ms ≠ 0#16 := hms
  exact { h with
    delaying := fun ms' hms' => by
      cases hms'
      exact ⟨hms, by simp [hsp, spStep, hst]⟩
    closing := fun hc' => absurd hc' (by simp [hc])
    wire := ⟨armed, by simp [readTrace_append, hwire, readTrace, WireLevels.after, hms'], harm⟩ }

/-- A lock request at an Acquire on a shared bus meets the invariant (R176). -/
theorem inv_requestLock {op : Byte} (h : Inv s) (hsp : s.sp = .run op .acquire n) (hc : s.closePending = false)
    (hb : s.params.sharedBus = true) : Inv { s with lockReq := true } :=
  { h with
    lockShared := fun _ => hb
    lockKept := fun _ _ => rfl
    lockWait := fun _ _ => by simp [hsp, spStep]
    closing := fun hc' => absurd hc' (by simp [hc]) }

/-! ## A step about to run -/

/-- The executing command's step `st` is about to run: by the core's own move, or by the answer it waited for, which
`reply` hands over. A command byte answered in this step counts as sent. -/
structure Poised (st : SeqStep) (n : Nat) (armed : Bool) (s : State) : Prop where
  inv : Inv { s with reply := none }
  sp : s.sp = .run (opField s.asm.hdr) st n
  noTransfer : s.xfer.pending = false
  noDelay : s.delay = none
  wire : readTrace s.params.sharedBus .start s.trace =
    some { cs := s.csN, rst := s.rstN, locked := s.locked && s.params.sharedBus, armed := armed }
  armedAt : stepArmed st = true ∨ s.reply ≠ none ∧ stepMode st = some false → armed = true
  answered : s.reply ≠ none → awaits st = true
  granted : st = .acquire → s.params.sharedBus = true → s.reply ≠ none → s.lockReq = true

/-- Step `st` of the legal command `i` is about to run, with no close pending. -/
structure Due (i : Instr) (st : SeqStep) (n : Nat) (armed : Bool) (s : State) : Prop extends Poised st n armed s where
  decoded : ∃ rest, decode (asmWords s) = .ok (i, rest)
  noClose : s.closePending = false

/-- A state that hands no answer over. -/
theorem reply_none_eq (h : s.reply = none) : { s with reply := none } = s := by
  cases s
  cases h
  rfl

theorem Poised.busy (h : Poised st n armed s) : s.busy = true := by
  have hb : s.busy = _ := h.inv.busy
  rw [hb, h.sp]
  rfl

theorem Poised.reply_none (h : Poised st n armed s) (hst : awaits st = false) : s.reply = none := by
  by_contra hr
  simp [h.answered hr] at hst

theorem Poised.inv_self (h : Poised st n armed s) (hr : s.reply = none) : Inv s := reply_none_eq hr ▸ h.inv

theorem Due.names (h : Due i st n armed s) : Names i st n s = true := by
  obtain ⟨rest, hd⟩ := h.decoded
  exact ((commandOk_decoded (s := { s with reply := none }) h.sp hd).1 h.inv.command).2.1

theorem Due.executing (h : Due i st n armed s) (hi : i.opcode ≠ 3) : Executing i { s with reply := none } where
  busy := h.busy
  sp := ⟨st, n, h.sp⟩
  decoded := h.decoded
  notImage := hi

/-- Once its answer is taken, a step other than Acquire stands between two micro-operations. -/
theorem Poised.settled (h : Poised st n armed s) (hc : s.closePending = false) (hst : st ≠ .acquire) :
    Settled (stepLevels st) armed { s with reply := none } where
  params := h.inv.params
  pbForm := h.inv.pbForm
  pbRange := h.inv.pbRange
  tbForm := h.inv.tbForm
  tbRange := h.inv.tbRange
  window := h.inv.window
  noReply := rfl
  noTransfer := h.noTransfer
  noDelay := h.noDelay
  noClose := hc
  asmPhase := h.inv.notBoth h.busy
  levels := by simpa [h.sp, spLevels] using h.inv.levels
  lock := by
    have hshared : s.lockReq = true → s.params.sharedBus = true := h.inv.lockShared
    have hkept : s.locked = true → s.params.sharedBus = true → s.lockReq = true := h.inv.lockKept
    have hwait : s.lockReq = true → s.locked = false → (st == .acquire) = true := by
      simpa [h.sp, spStep] using h.inv.lockWait
    have hwait' : s.lockReq = true → s.locked = true := fun hr => by
      by_contra hl
      exact hst (by simpa using hwait hr (by simpa using hl))
    show s.lockReq = (s.locked && s.params.sharedBus)
    rw [Bool.eq_iff_iff, Bool.and_eq_true]
    exact ⟨fun hr => ⟨hwait' hr, hshared hr⟩, fun ⟨hl, hb⟩ => hkept hl hb⟩
  wire := h.wire

theorem Due.settled (h : Due i st n armed s) (hst : st ≠ .acquire) :
    Settled (stepLevels st) armed { s with reply := none } := h.toPoised.settled h.noClose hst

/-- At a step that waits for nothing. -/
theorem Due.settled_self (h : Due i st n armed s) (hst : awaits st = false) : Settled (stepLevels st) armed s :=
  reply_none_eq (h.reply_none hst) ▸ h.settled (by rintro rfl; simp [awaits] at hst)

theorem Due.executing_self (h : Due i st n armed s) (hst : awaits st = false) (hi : i.opcode ≠ 3) : Executing i s :=
  reply_none_eq (h.reply_none hst) ▸ h.executing hi

/-! ## The shared pieces of the driver commands -/

/-- A driver command's next step, with what it needs of the state it begins in. -/
theorem Leads.goto (h : Settled (stepLevels st) armed s) (he : Executing i s) (hn : Names i st n s = true)
    (hmode : ∀ b, stepMode st = some b → s.dc = b) (harm : stepArmed st = true → armed = true) :
    Leads Inv (.next (goto st n s)) := Leads.next (inv_goto h he hn hmode harm)

theorem Due.groupStep {g : Group} {m : GroupStep} {k : Nat} {cmd : Byte} {params : List Byte} {onOk : State → Out}
    (h : Due i (.group g m) n armed s) (hi : i.opcode ≠ 3) (hm : groupHas (!params.isEmpty) m = true)
    (hfit : params.length ≤ s.params.tbufBytes)
    (hnames : ∀ m', groupHas (!params.isEmpty) m' = true → Names i (.group g m') k s = true)
    (habort : Names i .abortDeselect 0 s = true)
    (hok : s.reply = some .ok → Leads Inv (onOk { s with reply := none })) :
    Leads Inv (groupStep g m k cmd params onOk s) := by
  have hs := h.settled (by simp)
  have he := h.executing hi
  have hreply : ∀ a, s.reply = some a → s.reply ≠ none := fun a ha => by simp [ha]
  cases m with
  | settle => simp [groupHas] at hm
  | cmdMode =>
    have hr := h.reply_none (awaits_cmdMode g)
    rw [reply_none_eq hr] at hs he
    simp only [Sys2Proof.Machine.groupStep, lineOp_ready _ h.noTransfer]
    exact Leads.goto hs.cmdModeLine { he with } (hnames .cmdByte rfl) (by simp [stepMode]) (by simp [stepArmed])
  | dataMode =>
    have hr := h.reply_none (awaits_dataMode g)
    rw [reply_none_eq hr] at hs he
    simp only [Sys2Proof.Machine.groupStep, lineOp_ready _ h.noTransfer]
    exact Leads.goto hs.dataModeLine { he with } (hnames .params hm) (by simp [stepMode]) fun _ => h.armedAt (.inl rfl)
  | cmdByte =>
    simp only [Sys2Proof.Machine.groupStep]
    match hr : s.reply with
    | none =>
      rw [transferStep_none hr]
      have hbuf : 4 ≤ s.params.tbufBytes := (maxChunk_bounds hs.params).2.2.2
      exact inv_request (h.inv_self hr) h.sp rfl h.noTransfer (by simp) (by simp; omega) (by simp)
    | some .ok =>
      rw [transferStep_ok hr]
      split_ifs with hp
      · exact hok hr
      · exact Leads.goto hs he (hnames .dataMode (by simpa [groupHas] using hp)) (by simp [stepMode])
          fun _ => h.armedAt (.inr ⟨hreply _ hr, rfl⟩)
    | some .err =>
      rw [transferStep_err hr]
      exact Leads.goto hs he habort (by simp [stepMode]) (by simp [stepArmed])
  | params =>
    simp only [Sys2Proof.Machine.groupStep]
    match hr : s.reply with
    | none =>
      rw [transferStep_none hr]
      have hne : params ≠ [] := by simpa [groupHas] using hm
      exact inv_request (h.inv_self hr) h.sp rfl h.noTransfer (List.length_pos_iff.2 hne) hfit (by simp)
    | some .ok =>
      rw [transferStep_ok hr]
      exact hok hr
    | some .err =>
      rw [transferStep_err hr]
      exact Leads.goto hs he habort (by simp [stepMode]) (by simp [stepArmed])

theorem Due.delayStep {ms : Half} {after : State → Out} (h : Due i st n armed s) (hst : stepDelays st = true)
    (hok : Leads Inv (after { s with reply := none })) : Leads Inv (delayStep ms after s) := by
  unfold Sys2Proof.Machine.delayStep
  split_ifs with hms
  · exact hok
  · match hr : s.reply with
    | none => exact Leads.next (inv_requestDelay (h.inv_self hr) h.sp hst h.noClose hms)
    | some _ => exact hok

theorem Leads.enterDelay {ms : Half} {hold : SeqStep} {after : State → Out} (hhold : Inv (Machine.goto hold n s))
    (hok : Leads Inv (after s)) : Leads Inv (enterDelay ms hold n after s) := by
  unfold Sys2Proof.Machine.enterDelay
  split_ifs
  · exact hok
  · exact Leads.next hhold

/-- Acquire takes the lock at once, or waits for the grant, and Select is next (R176, R179). -/
theorem Due.acquireStep (h : Due i .acquire n armed s) (hi : i.opcode ≠ 3) (hselect : Names i .select 0 s = true) :
    Leads Inv (acquireStep (fun t => .next (goto .select 0 t)) s) := by
  have taken (hlock : s.lockReq = s.params.sharedBus) :
      Leads Inv (.next (goto .select 0 (takeLock { s with reply := none }))) := by
    obtain ⟨hcs, hrst, hlk⟩ : s.csN = true ∧ s.rstN = true ∧ s.locked = false := by
      simpa [h.sp, spLevels, stepLevels] using h.inv.levels
    refine Leads.goto (i := i) (armed := armed) ?_ { h.executing hi with } hselect (by simp [stepMode]) (by simp [stepArmed])
    exact {
      params := h.inv.params
      pbForm := h.inv.pbForm
      pbRange := h.inv.pbRange
      tbForm := h.inv.tbForm
      tbRange := h.inv.tbRange
      window := h.inv.window
      noReply := rfl
      noTransfer := h.noTransfer
      noDelay := h.noDelay
      noClose := h.noClose
      asmPhase := h.inv.notBoth h.busy
      levels := by simp [hcs, hrst, stepLevels]
      lock := by simpa using hlock
      wire := by cases hb : s.params.sharedBus <;>
        simp [readTrace_append, hb ▸ h.wire, hb, hlk, hcs, readTrace, WireLevels.after] }
  unfold Sys2Proof.Machine.acquireStep
  cases hb : s.params.sharedBus with
  | true =>
    match hr : s.reply with
    | none => exact Leads.next (inv_requestLock h.inv h.sp h.noClose hb)
    | some _ => exact taken (by rw [hb, h.granted rfl hb (by simp [hr])])
  | false =>
    have hfree : s.lockReq = false := by
      by_contra hl
      have hshared : s.params.sharedBus = true := h.inv.lockShared (by simpa using hl)
      simp [hb] at hshared
    exact taken (by rw [hb, hfree])

/-- The end of a frame, and CLOSE's Deselect (R179, R181, R299). -/
theorem Due.deselectStep {next : SeqStep} {cs rst lk : Bool} (h : Due i st n armed s) (hi : i.opcode ≠ 3)
    (hst : awaits st = false) (hlv : stepLevels st = (cs, rst, lk)) (hnext : stepLevels next = (true, rst, lk))
    (hplain : stepMode next = none ∧ stepArmed next = false) (hn : Names i next 0 s = true) :
    Leads Inv (deselectStep next s) := by
  refine ⟨_, lineOp_ready _ h.noTransfer, inv_goto (hnext ▸ (hlv ▸ h.settled_self hst).deselectLine)
    { h.executing_self hst hi with } hn (by simp [hplain]) (by simp [hplain])⟩

/-- `checked` at a command's first step: the rejected command completes with nothing else done (R321, R326). -/
theorem Due.checked {body : State → Out} (h : Due i .begin n armed s) (hbody : check i s = .ok → Leads Inv (body s)) :
    Leads Inv (checked i body s) := by
  by_cases hc : check i s = .ok
  · rw [checked_ok hc]
    exact hbody hc
  · rw [checked_rejected hc]
    have hn := h.names
    simp only [Names, stateAt, Bool.and_eq_true] at hn
    exact Leads.next (inv_complete _ (h.settled_self rfl) hn.1.2)

/-- After Select the frame is open, and no command byte has been sent in it (R179). -/
theorem Due.select (h : Due i .select n armed s) {after : State → Out}
    (hok : Settled (false, true, true) false (selectLine s) → Leads Inv (after (selectLine s))) :
    Leads Inv (andThen (lineOp selectLine s) after) := by
  rw [lineOp_ready _ h.noTransfer, andThen_next]
  exact hok (h.settled_self rfl).selectLine

theorem Settled.finish {d : DriverState} (c : Code) (h : Settled (true, true, false) armed s)
    (hd : restingState d = true) : Leads Inv (finish d c s) :=
  Leads.next (inv_complete c (s := { s with state := d }) { h with } hd)

/-- Release leaves the lines and the lock at rest (R177, R179). -/
theorem Due.released (h : Due i st n armed s) (hst : awaits st = false) (hlv : stepLevels st = (true, true, true)) :
    Settled (true, true, false) armed (releaseLock s) := (hlv ▸ h.settled_self hst).releaseLock

/-- The successful end of a frame, with the delay after it (R218, R277). -/
theorem Due.releaseStep_delay {ms : Half} {d : DriverState} {c : Code} (h : Due i .release n armed s)
    (hi : i.opcode ≠ 3) (hpost : Names i .postDelay 0 s = true) (hd : restingState d = true) :
    Leads Inv (releaseStep (enterDelay ms .postDelay 0 (Machine.finish d c)) s) := by
  have hs := h.released rfl rfl
  have hhold : Inv (Machine.goto .postDelay 0 (releaseLock s)) :=
    inv_goto (armed := armed) hs { h.executing_self rfl hi with } hpost (by simp [stepMode]) (by simp [stepArmed])
  exact Leads.enterDelay hhold (hs.finish c hd)

/-! ## The commands, step by step

Each command's steps are those `stepOf` gives it; at every other step the invariant is contradicted. -/

theorem execSleep_leads (h : Due .sleep st n armed s) : Leads Inv (execSleep s) := by
  have hi : Instr.sleep.opcode ≠ 3 := by decide
  have hn := h.names
  cases st with
  | begin =>
    simp only [execSleep, h.sp]
    refine h.checked fun hc => ?_
    have hst : s.state = .ready := by simpa [validIn] using (check_eq_ok hc).2.1
    exact Leads.goto (h.settled_self rfl) (h.executing_self rfl hi) (by simp [Names, stepOf, stateAt, hst])
      (by simp [stepMode]) (by simp [stepArmed])
  | acquire =>
    have hst : s.state = .ready := by simpa [Names, stepOf, stateAt] using hn
    simp only [execSleep, h.sp]
    exact h.acquireStep hi (by simp [Names, stepOf, stateAt, hst])
  | select =>
    have hst : s.state = .ready := by simpa [Names, stepOf, stateAt] using hn
    simp only [execSleep, h.sp]
    exact h.select fun hs => Leads.goto hs { h.executing_self rfl hi with }
      (by simp [Names, stepOf, stateAt, hst, groupHas]) (by simp [stepMode]) (by simp [stepArmed])
  | group g m =>
    cases g with
    | slpin =>
      obtain ⟨hm, hst⟩ : groupHas false m = true ∧ s.state = .ready := by simpa [Names, stepOf, stateAt] using hn
      simp only [execSleep, h.sp]
      exact h.groupStep hi hm (by simp) (fun m' hm' => by simpa [Names, stepOf, stateAt, hst] using hm')
        (by simp [Names, stepOf, stateAt, hst])
        fun _ => Leads.goto (h.settled (by simp)) (h.executing hi) (by simp [Names, stepOf, stateAt, hst])
          (by simp [stepMode]) (by simp [stepArmed])
    | _ => simp [Names, stepOf] at hn
  | deselect =>
    have hst : s.state = .ready := by simpa [Names, stepOf, stateAt] using hn
    simp only [execSleep, h.sp]
    exact h.deselectStep hi rfl rfl rfl ⟨rfl, rfl⟩ (by simp [Names, stepOf, stateAt, hst])
  | release =>
    have hst : s.state = .ready := by simpa [Names, stepOf, stateAt] using hn
    simp only [execSleep, h.sp]
    exact h.releaseStep_delay hi (by simp [Names, stepOf, stateAt, hst]) rfl
  | postDelay =>
    simp only [execSleep, h.sp]
    exact h.delayStep rfl ((h.settled (by simp)).finish _ rfl)
  | abortDeselect =>
    have hst : s.state = .ready := by simpa [Names, stepOf, stateAt] using hn
    simp only [execSleep, h.sp]
    exact h.deselectStep hi rfl rfl rfl ⟨rfl, rfl⟩ (by simp [Names, stepOf, stateAt, hst])
  | abortRelease =>
    have hst : s.state = .ready := by simpa [Names, stepOf, stateAt] using hn
    simp only [execSleep, h.sp]
    exact Leads.next (inv_complete _ (h.released rfl rfl) (by simp [hst, restingState]))
  | _ => simp [Names, stepOf] at hn

theorem execWake_leads (h : Due .wake st n armed s) : Leads Inv (execWake s) := by
  have hi : Instr.wake.opcode ≠ 3 := by decide
  have hn := h.names
  cases st with
  | begin =>
    simp only [execWake, h.sp]
    refine h.checked fun hc => ?_
    have hst : s.state = .sleeping := by simpa [validIn] using (check_eq_ok hc).2.1
    exact Leads.goto (h.settled_self rfl) (h.executing_self rfl hi) (by simp [Names, stepOf, stateAt, hst])
      (by simp [stepMode]) (by simp [stepArmed])
  | acquire =>
    have hst : s.state = .sleeping := by simpa [Names, stepOf, stateAt] using hn
    simp only [execWake, h.sp]
    exact h.acquireStep hi (by simp [Names, stepOf, stateAt, hst])
  | select =>
    have hst : s.state = .sleeping := by simpa [Names, stepOf, stateAt] using hn
    simp only [execWake, h.sp]
    exact h.select fun hs => Leads.goto hs { h.executing_self rfl hi with }
      (by simp [Names, stepOf, stateAt, hst, groupHas]) (by simp [stepMode]) (by simp [stepArmed])
  | group g m =>
    cases g with
    | slpout =>
      obtain ⟨hm, hst⟩ : groupHas false m = true ∧ s.state = .sleeping := by simpa [Names, stepOf, stateAt] using hn
      simp only [execWake, h.sp]
      exact h.groupStep hi hm (by simp) (fun m' hm' => by simpa [Names, stepOf, stateAt, hst] using hm')
        (by simp [Names, stepOf, stateAt, hst])
        fun _ => Leads.goto (h.settled (by simp)) (h.executing hi) (by simp [Names, stepOf, stateAt, hst])
          (by simp [stepMode]) (by simp [stepArmed])
    | _ => simp [Names, stepOf] at hn
  | deselect =>
    have hst : s.state = .sleeping := by simpa [Names, stepOf, stateAt] using hn
    simp only [execWake, h.sp]
    exact h.deselectStep hi rfl rfl rfl ⟨rfl, rfl⟩ (by simp [Names, stepOf, stateAt, hst])
  | release =>
    have hst : s.state = .sleeping := by simpa [Names, stepOf, stateAt] using hn
    simp only [execWake, h.sp]
    exact h.releaseStep_delay hi (by simp [Names, stepOf, stateAt, hst]) rfl
  | postDelay =>
    simp only [execWake, h.sp]
    exact h.delayStep rfl ((h.settled (by simp)).finish _ rfl)
  | abortDeselect =>
    have hst : s.state = .sleeping := by simpa [Names, stepOf, stateAt] using hn
    simp only [execWake, h.sp]
    exact h.deselectStep hi rfl rfl rfl ⟨rfl, rfl⟩ (by simp [Names, stepOf, stateAt, hst])
  | abortRelease =>
    have hst : s.state = .sleeping := by simpa [Names, stepOf, stateAt] using hn
    simp only [execWake, h.sp]
    exact Leads.next (inv_complete _ (h.released rfl rfl) (by simp [hst, restingState]))
  | _ => simp [Names, stepOf] at hn

theorem execClose_leads (h : Due .close st n armed s) : Leads Inv (execClose s) := by
  have hi : Instr.close.opcode ≠ 3 := by decide
  have hn := h.names
  cases st with
  | begin =>
    simp only [execClose, h.sp]
    refine h.checked fun hc => ?_
    have hst : s.state ≠ .closed := (check_eq_ok hc).1
    have hrest : restingState s.state = true := by simpa [Names, stepOf, stateAt] using hn
    exact Leads.goto (h.settled_self rfl) (h.executing_self rfl hi) (by simp [Names, stepOf, stateAt, hst, hrest])
      (by simp [stepMode]) (by simp [stepArmed])
  | closeDeselect =>
    have hst : restingState s.state = true ∧ s.state ≠ .closed := by simpa [Names, stepOf, stateAt] using hn
    simp only [execClose, h.sp]
    exact h.deselectStep hi rfl rfl rfl ⟨rfl, rfl⟩ (by simp [Names, stepOf, stateAt, hst])
  | closeRelease =>
    have hst : restingState s.state = true ∧ s.state ≠ .closed := by simpa [Names, stepOf, stateAt] using hn
    simp only [execClose, h.sp]
    exact Leads.goto (h.settled_self rfl).releaseLock { h.executing_self rfl hi with }
      (by simp [Names, stepOf, stateAt, hst]) (by simp [stepMode]) (by simp [stepArmed])
  | closeResetHigh =>
    simp only [execClose, h.sp, lineOp_ready _ h.noTransfer, andThen_next]
    exact (h.settled_self rfl).resetHighLine.finish _ rfl
  | _ => simp [Names, stepOf] at hn

/-- The next entry of the init table, or the end of its frame (R204). -/
theorem initEntryAt_leads {resetMs : Half} {orient : BitVec 2} {bgr inv : Bool}
    (hs : Settled (false, true, true) armed s) (he : Executing (.init resetMs orient bgr inv) s)
    (hst : s.state = .initializing) (n : Nat) : Leads Inv (initEntryAt n s) := by
  unfold initEntryAt
  split_ifs with hlt
  · exact Leads.goto hs he (by simp [Names, stepOf, stateAt, hst, hlt, groupHas]) (by simp [stepMode])
      (by simp [stepArmed])
  · exact Leads.goto hs he (by simp [Names, stepOf, stateAt, hst]) (by simp [stepMode]) (by simp [stepArmed])

/-- An entry of a well-formed table fits the transfer buffer (R11, R84). -/
theorem initEntry_fits {p : Params} {e : InitEntry} (hp : p.wellFormed = true) (he : e ∈ p.initTable) :
    e.params.length ≤ p.tbufBytes := by
  simp only [Params.wellFormed, Bool.and_eq_true, List.all_eq_true, decide_eq_true_eq] at hp
  obtain ⟨⟨⟨-, htable⟩, -⟩, -⟩ := hp
  exact htable e he

theorem initGroup_leads {resetMs : Half} {orient : BitVec 2} {bgr inv : Bool} {m : GroupStep}
    (h : Due (.init resetMs orient bgr inv) (.group .initEntry m) n armed s) : Leads Inv (initGroup m n s) := by
  have hi : (Instr.init resetMs orient bgr inv).opcode ≠ 3 := by simp [Instr.opcode]
  have hn := h.names
  cases he : s.params.initTable[n]? with
  | none => simp [Names, stepOf, he] at hn
  | some e =>
    obtain ⟨hm, hst⟩ : (groupHas (!e.params.isEmpty) m = true ∨ m = .settle) ∧ s.state = .initializing := by
      simpa [Names, stepOf, stateAt, he] using hn
    have hs := h.settled (by simp)
    have hnext : Leads Inv (initEntryAt (n + 1) { s with reply := none }) :=
      initEntryAt_leads hs (h.executing hi) hst _
    have hgroup (hm : groupHas (!e.params.isEmpty) m = true) : Leads Inv
        (groupStep .initEntry m n (resolveCmd s e.cmd) (e.params.map (resolveParam s))
          (enterDelay e.delayMs (.group .initEntry .settle) n (initEntryAt (n + 1))) s) := by
      have hhold : Inv (goto (.group .initEntry .settle) n { s with reply := none }) :=
        inv_goto hs (h.executing hi) (by simp [Names, stepOf, stateAt, hst, he]) (by simp [stepMode]) (by simp [stepArmed])
      have hfit : (e.params.map (resolveParam s)).length ≤ s.params.tbufBytes := by
        simpa using initEntry_fits hs.params (List.mem_of_getElem? he)
      exact h.groupStep hi (by simpa using hm) hfit
        (fun m' hm' => by simp [Names, stepOf, stateAt, hst, he]; left; simpa using hm')
        (by simp [Names, stepOf, stateAt, hst]) fun _ => Leads.enterDelay hhold hnext
    unfold initGroup
    rw [he]
    cases m with
    | settle => exact h.delayStep rfl hnext
    | _ => exact hgroup (by simpa using hm)

theorem execInit_leads {resetMs : Half} {orient : BitVec 2} {bgr inv : Bool}
    (h : Due (.init resetMs orient bgr inv) st n armed s) : Leads Inv (execInit resetMs orient bgr inv s) := by
  have hi : (Instr.init resetMs orient bgr inv).opcode ≠ 3 := by simp [Instr.opcode]
  have hn := h.names
  have opening {t : State} (hs : Settled (true, true, false) armed t)
      (he : Executing (.init resetMs orient bgr inv) t) : Leads Inv (initOpen t) :=
    Leads.goto (s := { t with state := .initializing }) (i := .init resetMs orient bgr inv) (armed := armed) { hs with } { he with }
      (by simp [Names, stepOf, stateAt]) (by simp [stepMode]) (by simp [stepArmed])
  cases st with
  | begin =>
    simp only [execInit, h.sp]
    refine h.checked fun _ => ?_
    exact Leads.goto (i := .init resetMs orient bgr inv) (armed := armed) { h.settled_self rfl with } { h.executing_self rfl hi with }
      (by simp [Names, stepOf, stateAt]) (by simp [stepMode]) (by simp [stepArmed])
  | resetLow =>
    have hst : s.state = .resetting := by simpa [Names, stepOf, stateAt] using hn
    have hs := (h.settled_self rfl).resetLowLine
    have he : Executing (.init resetMs orient bgr inv) (resetLowLine s) := { h.executing_self rfl hi with }
    simp only [execInit, h.sp, lineOp_ready _ h.noTransfer, andThen_next]
    exact Leads.enterDelay
      (inv_goto hs he (by simp [Names, stepOf, stateAt, hst]) (by simp [stepMode]) (by simp [stepArmed]))
      (Leads.goto hs he (by simp [Names, stepOf, stateAt, hst]) (by simp [stepMode]) (by simp [stepArmed]))
  | resetHold =>
    have hst : s.state = .resetting := by simpa [Names, stepOf, stateAt] using hn
    simp only [execInit, h.sp]
    exact h.delayStep rfl (Leads.goto (h.settled (by simp)) (h.executing hi) (by simp [Names, stepOf, stateAt, hst])
      (by simp [stepMode]) (by simp [stepArmed]))
  | resetHigh =>
    have hst : s.state = .resetting := by simpa [Names, stepOf, stateAt] using hn
    have hs := (h.settled_self rfl).resetHighLine
    have he : Executing (.init resetMs orient bgr inv) (resetHighLine s) := { h.executing_self rfl hi with }
    simp only [execInit, h.sp, lineOp_ready _ h.noTransfer, andThen_next]
    exact Leads.enterDelay
      (inv_goto hs he (by simp [Names, stepOf, stateAt, hst]) (by simp [stepMode]) (by simp [stepArmed]))
      (opening hs he)
  | recovery =>
    simp only [execInit, h.sp]
    exact h.delayStep rfl (opening (h.settled (by simp)) (h.executing hi))
  | acquire =>
    have hst : s.state = .initializing := by simpa [Names, stepOf, stateAt] using hn
    simp only [execInit, h.sp]
    exact h.acquireStep hi (by simp [Names, stepOf, stateAt, hst])
  | select =>
    have hst : s.state = .initializing := by simpa [Names, stepOf, stateAt] using hn
    simp only [execInit, h.sp]
    exact h.select fun hs => initEntryAt_leads hs { h.executing_self rfl hi with } hst _
  | group g m =>
    cases g with
    | initEntry =>
      simp only [execInit, h.sp]
      exact initGroup_leads h
    | _ => simp [Names, stepOf] at hn
  | deselect =>
    have hst : s.state = .initializing := by simpa [Names, stepOf, stateAt] using hn
    simp only [execInit, h.sp]
    exact h.deselectStep hi rfl rfl rfl ⟨rfl, rfl⟩ (by simp [Names, stepOf, stateAt, hst])
  | release =>
    have hst : s.state = .initializing := by simpa [Names, stepOf, stateAt] using hn
    simp only [execInit, h.sp]
    exact h.releaseStep_delay hi (by simp [Names, stepOf, stateAt, hst]) rfl
  | postDelay =>
    simp only [execInit, h.sp]
    exact h.delayStep rfl ((h.settled (by simp)).finish _ rfl)
  | abortDeselect =>
    have hst : s.state = .initializing := by simpa [Names, stepOf, stateAt] using hn
    simp only [execInit, h.sp]
    exact h.deselectStep hi rfl rfl rfl ⟨rfl, rfl⟩ (by simp [Names, stepOf, stateAt, hst])
  | abortRelease =>
    simp only [execInit, h.sp]
    exact (h.released rfl rfl).finish _ rfl
  | _ => simp [Names, stepOf] at hn

/-- The window a FLUSH sends lies in the panel (R41). -/
theorem Settled.window_inPanel (h : Settled lv armed s) (hv : s.dw.valid = true) : s.dw.inPanel s.params = true := by
  rcases h.window with ⟨-, hp⟩ | hw
  · exact hp
  · simp [hw, Window.empty] at hv

/-- The next chunk, or the end of the frame (R213). -/
theorem flushChunkAt_leads (hs : Settled (false, true, true) true s) (he : Executing .flush s)
    (hst : s.state = .flushing) (hv : s.dw.valid = true) (hdc : s.dc = true) (k : Nat) :
    Leads Inv (flushChunkAt k s) := by
  unfold flushChunkAt
  split_ifs with hlt
  · exact Leads.goto hs he (by simp [Names, stepOf, stateAt, hst, hv, hlt]) (by simp [stepMode, hdc]) fun _ => rfl
  · exact Leads.goto hs he (by simp [Names, stepOf, stateAt, hst, hv]) (by simp [stepMode]) (by simp [stepArmed])

theorem chunkStep_leads (h : Due .flush .chunk n armed s) : Leads Inv (chunkStep n s) := by
  have hi : Instr.flush.opcode ≠ 3 := by decide
  obtain ⟨⟨hlt, hst⟩, hv⟩ : (n < chunkCount s ∧ s.state = .flushing) ∧ s.dw.valid = true := by
    simpa [Names, stepOf, stateAt] using h.names
  obtain rfl : armed = true := h.armedAt (.inl rfl)
  have hs := h.settled (by simp)
  have hdc : s.dc = true := h.inv.mode true (by simp [h.sp, spStep, stepMode])
  have hin : s.dw.inPanel s.params = true := hs.window_inPanel hv
  unfold chunkStep
  rw [if_pos hin]
  match hr : s.reply with
  | none =>
    have hfit := chunkBytes_fit hs.params (s := s) hlt
    exact inv_request (s := { s with chunksIssued := sat16 (n + 1), reply := none }) { h.inv with } h.sp rfl h.noTransfer
      hfit.1 hfit.2 (by simp)
  | some .ok =>
    simp only [transferStep_ok hr]
    exact flushChunkAt_leads hs (h.executing hi) hst hv hdc _
  | some .err =>
    simp only [transferStep_err hr]
    exact Leads.goto hs (h.executing hi) (by simp [Names, stepOf, stateAt, hst, hv]) (by simp [stepMode])
      (by simp [stepArmed])

theorem pixelModeStep_leads (h : Due .flush .pixelMode n armed s) : Leads Inv (pixelModeStep s) := by
  obtain ⟨hst, hv⟩ : s.state = .flushing ∧ s.dw.valid = true := by simpa [Names, stepOf, stateAt] using h.names
  obtain rfl : armed = true := h.armedAt (.inl rfl)
  unfold pixelModeStep
  rw [lineOp_ready _ (s := { s with chunksTotal := sat16 (chunkCount s) }) h.noTransfer, andThen_next]
  exact flushChunkAt_leads (s := dataModeLine { s with chunksTotal := sat16 (chunkCount s) })
    { h.settled_self rfl with } { h.executing_self rfl (by decide) with } hst hv rfl 0

/-- A group of a FLUSH, after which the step `next` follows (R206). -/
theorem flushGroup_leads {g : Group} {m : GroupStep} {next : SeqStep} {cmd : Byte} {params : List Byte}
    (h : Due .flush (.group g m) n armed s) (hm : groupHas (!params.isEmpty) m = true)
    (hfit : params.length ≤ s.params.tbufBytes)
    (hsteps : ∀ m', groupHas (!params.isEmpty) m' = true → stepOf .flush s (.group g m') 0 = true)
    (hnext : stepOf .flush s next 0 = true) (hlv : stepLevels next = (false, true, true))
    (hmode : stepMode next = none) (harm : s.reply = some .ok → stepArmed next = true → armed = true) :
    Leads Inv (groupStep g m 0 cmd params (fun t => .next (goto next 0 t)) s) := by
  have hi : Instr.flush.opcode ≠ 3 := by decide
  have hn := h.names
  simp only [Names, stateAt, Bool.and_eq_true, beq_iff_eq, Bool.or_eq_true, bne_self_eq_false, Bool.false_eq_true,
    or_false, reduceCtorEq, false_or] at hn
  obtain ⟨⟨-, hst⟩, hv⟩ := hn
  have hflush {st : SeqStep} (hstep : stepOf .flush s st 0 = true) (hne : st ≠ .begin) : Names .flush st 0 s = true := by
    cases st <;> simp_all [Names, stateAt]
  refine h.groupStep hi hm hfit (fun m' hm' => hflush (hsteps m' hm') (by simp)) (hflush rfl (by simp)) fun hr => ?_
  have hs : Settled (stepLevels next) armed { s with reply := none } := hlv ▸ h.settled (by simp)
  exact Leads.goto hs (h.executing hi) (hflush hnext (by rintro rfl; simp [stepLevels] at hlv)) (by simp [hmode]) (harm hr)

theorem execFlush_leads (h : Due .flush st n armed s) : Leads Inv (execFlush s) := by
  have hi : Instr.flush.opcode ≠ 3 := by decide
  have hn := h.names
  have hbuf : 4 ≤ s.params.tbufBytes := (maxChunk_bounds h.inv.params).2.2.2
  cases st with
  | begin =>
    simp only [execFlush, h.sp]
    refine h.checked fun hc => ?_
    have hst : s.state = .ready := by simpa [validIn] using (check_eq_ok hc).2.1
    have hs := h.settled_self rfl
    simp only [flushBegin]
    split_ifs with hv
    · exact Leads.goto (i := .flush) (armed := armed) { hs with } { h.executing_self rfl hi with }
        (by simp [Names, stepOf, stateAt, hv]) (by simp [stepMode]) (by simp [stepArmed])
    · exact Leads.next (inv_complete _ (armed := armed) { hs with } (by simp [hst, restingState]))
  | acquire =>
    obtain ⟨hst, hv⟩ : s.state = .flushing ∧ s.dw.valid = true := by simpa [Names, stepOf, stateAt] using hn
    simp only [execFlush, h.sp]
    exact h.acquireStep hi (by simp [Names, stepOf, stateAt, hst, hv])
  | select =>
    obtain ⟨hst, hv⟩ : s.state = .flushing ∧ s.dw.valid = true := by simpa [Names, stepOf, stateAt] using hn
    simp only [execFlush, h.sp]
    exact h.select fun hs => Leads.goto hs { h.executing_self rfl hi with }
      (by simp [Names, stepOf, stateAt, hst, hv, groupHas]) (by simp [stepMode]) (by simp [stepArmed])
  | group g m =>
    cases g with
    | caset =>
      obtain ⟨⟨hm, -⟩, -⟩ : (groupHas true m = true ∧ _) ∧ _ := by simpa [Names, stepOf, stateAt] using hn
      simp only [execFlush, h.sp]
      exact flushGroup_leads h hm hbuf (fun m' hm' => hm') rfl rfl rfl fun _ => by simp [stepArmed]
    | raset =>
      obtain ⟨⟨hm, -⟩, -⟩ : (groupHas true m = true ∧ _) ∧ _ := by simpa [Names, stepOf, stateAt] using hn
      simp only [execFlush, h.sp]
      exact flushGroup_leads h hm hbuf (fun m' hm' => hm') rfl rfl rfl fun _ => by simp [stepArmed]
    | ramwr =>
      obtain ⟨⟨hm, -⟩, -⟩ : (groupHas false m = true ∧ _) ∧ _ := by simpa [Names, stepOf, stateAt] using hn
      simp only [execFlush, h.sp]
      refine flushGroup_leads h hm (by simp) (fun m' hm' => hm') rfl rfl rfl fun hr _ => h.armedAt (.inr ⟨by simp [hr], ?_⟩)
      cases m with
      | cmdByte => rfl
      | cmdMode => simp [h.reply_none (awaits_cmdMode _)] at hr
      | _ => simp [groupHas] at hm
    | _ => simp [Names, stepOf] at hn
  | pixelMode =>
    simp only [execFlush, h.sp]
    exact pixelModeStep_leads h
  | chunk =>
    simp only [execFlush, h.sp]
    exact chunkStep_leads h
  | deselect =>
    obtain ⟨hst, hv⟩ : s.state = .flushing ∧ s.dw.valid = true := by simpa [Names, stepOf, stateAt] using hn
    simp only [execFlush, h.sp]
    exact h.deselectStep hi rfl rfl rfl ⟨rfl, rfl⟩ (by simp [Names, stepOf, stateAt, hst, hv])
  | release =>
    have hs := h.released rfl rfl
    simp only [execFlush, h.sp]
    exact Settled.finish (armed := armed) _ { hs with window := .inr rfl } rfl
  | abortDeselect =>
    obtain ⟨hst, hv⟩ : s.state = .flushing ∧ s.dw.valid = true := by simpa [Names, stepOf, stateAt] using hn
    simp only [execFlush, h.sp]
    exact h.deselectStep hi rfl rfl rfl ⟨rfl, rfl⟩ (by simp [Names, stepOf, stateAt, hst, hv])
  | abortRelease =>
    simp only [execFlush, h.sp]
    exact (h.released rfl rfl).finish _ rfl
  | _ => simp [Names, stepOf] at hn

/-! ## The framebuffer commands -/

/-- The panel's sides are positive and fit a coordinate (R6). -/
theorem panel_bounds {p : Params} (h : p.wellFormed = true) :
    1 ≤ p.panelW ∧ p.panelW ≤ 65535 ∧ 1 ≤ p.panelH ∧ p.panelH ≤ 65535 := by
  simp [Params.wellFormed] at h
  omega

/-- The last column or row of an image inside a panel's side does not wrap (R248, R249). -/
theorem lastCoord_toNat {x w : Half} {side : Nat} (hside : side ≤ 65535)
    (hfit : x.toNat + w.toNat ≤ side) : (lastCoord x w).toNat = x.toNat + w.toNat - 1 := by
  rw [lastCoord, BitVec.toNat_ofNat]
  exact Nat.mod_eq_of_lt (by omega)

theorem whole_inPanel {p : Params} (h : p.wellFormed = true) : (Window.whole p).inPanel p = true := by
  have := panel_bounds h
  have hmod (side : Nat) (hs : 1 ≤ side ∧ side ≤ 65535) : (side - 1) % 2 ^ 16 < side := by omega
  rw [inPanel_iff]
  exact ⟨Nat.zero_le _, by simpa [Window.whole] using hmod p.panelW (by omega), Nat.zero_le _,
    by simpa [Window.whole] using hmod p.panelH (by omega)⟩

theorem Due.resting (h : Due i .begin n armed s) : restingState s.state = true := by
  have hn := h.names
  simp only [Names, stateAt, Bool.and_eq_true] at hn
  exact hn.1.2

/-- A command whose only step is its first is there. -/
theorem Due.eq_begin (h : Due i st n armed s) (hi : ∀ st n, stepOf i s st n = (st == .begin)) : st = .begin := by
  have hn := h.names
  simp only [Names, hi, Bool.and_eq_true, beq_iff_eq] at hn
  exact hn.1.1

theorem execWritePixel_leads {color x y : Half} (h : Due (.writePixel color x y) st n armed s) :
    Leads Inv (execWritePixel color x y s) := by
  obtain rfl := h.eq_begin fun _ _ => rfl
  have hs := h.settled_self rfl
  unfold execWritePixel
  rw [atBegin_begin h.sp]
  refine h.checked fun hc => ?_
  obtain ⟨hx, hy⟩ : x.toNat < s.params.panelW ∧ y.toNat < s.params.panelH := by
    simpa [inBounds] using (check_eq_ok hc).2.2
  have hidx := pixelIndex_lt hx hy
  rw [storePixel_eq_next.2 ⟨hidx, rfl⟩, andThen_next]
  exact Leads.next (inv_complete .ok (armed := armed) (s := extendDirty x y x y { s with pb := s.pb.put _ color })
    { hs with
      pbForm := put_wf _ _ hs.pbForm
      pbRange := put_below _ hidx hs.pbRange
      window := .inl ⟨extend_valid _ _ _ _ _, extend_inPanel hs.window_inPanel le_rfl hx le_rfl hy⟩ } h.resting)

/-- A DRAW_IMAGE with verdict OK, about to execute, has an image that fits the panel (R248). -/
theorem Due.drawImage_fits {x y w h : Half} (hdue : Due (.drawImage x y w h) .begin n armed s)
    (hv : s.asm.verdict = .ok) : imageInPanel s.params x.toNat y.toNat w.toNat h.toNat = true := by
  obtain ⟨rest, hd⟩ := hdue.decoded
  obtain ⟨xy, wh, hops, rfl, rfl, rfl, rfl⟩ := decode_drawImage hd
  have hop : opField s.asm.hdr = 3 := (decode_ok_opcode hd).symm
  have hcommand := ((commandOk_decoded (s := { s with reply := none }) hdue.sp hd).1 hdue.inv.command).2.2
  have hok : verdictOk s = true := hcommand.resolve_left fun hne => hne hop
  simp only [verdictOk, hv, bne_self_eq_false, Bool.false_or, Bool.and_eq_true, imageFits, imageXY, imageW, imageH,
    imageWH, hops, List.getD_cons_zero, List.getD_cons_succ] at hok
  exact hok.1

theorem execDrawImage_leads {x y w h : Half} (hdue : Due (.drawImage x y w h) st n armed s) :
    Leads Inv (execDrawImage x y w h s) := by
  obtain rfl := hdue.eq_begin fun _ _ => rfl
  have hs := hdue.settled_self rfl
  unfold execDrawImage
  rw [atBegin_begin hdue.sp]
  split_ifs with hv hpos
  · have hfit := hdue.drawImage_fits hv
    obtain ⟨hxw, hyh⟩ := imageInPanel_pixels hfit hpos
    have hw : 0 < w.toNat := Nat.pos_of_mul_pos_right hpos
    have hh : 0 < h.toNat := Nat.pos_of_mul_pos_left hpos
    have hb := panel_bounds hs.params
    have hX := lastCoord_toNat hb.2.1 hxw
    have hY := lastCoord_toNat hb.2.2.2 hyh
    have hwin : (s.dw.extend x y (lastCoord x w) (lastCoord y h)).inPanel s.params = true :=
      extend_inPanel hs.window_inPanel (by omega) (by omega) (by omega) (by omega)
    exact Leads.next (inv_complete .ok (armed := armed) (s := extendDirty x y (lastCoord x w) (lastCoord y h) s)
      { hs with window := .inl ⟨extend_valid _ _ _ _ _, hwin⟩ } hdue.resting)
  · exact Leads.next (inv_complete _ hs hdue.resting)
  · exact Leads.next (inv_complete _ hs hdue.resting)

theorem execClear_leads {color : Half} (h : Due (.clear color) st n armed s) : Leads Inv (execClear color s) := by
  obtain rfl := h.eq_begin fun _ _ => rfl
  have hs := h.settled_self rfl
  unfold execClear
  rw [atBegin_begin h.sp]
  exact h.checked fun _ => Leads.next (inv_complete .ok (armed := armed)
    (s := { fillPixels color s with dw := Window.whole s.params })
    { hs with
      pbForm := fillPixels_wf color s
      pbRange := fillPixels_below color s
      window := .inl ⟨rfl, whole_inPanel hs.params⟩ } h.resting)

/-! ## Going on with a command -/

/-- Every step of a legal command leads on within the invariant. -/
theorem exec_leads (h : Due i st n armed s) : Leads Inv (exec i s) := by
  cases i with
  | init resetMs orient bgr inv => exact execInit_leads h
  | writePixel color x y => exact execWritePixel_leads h
  | drawImage x y w h' => exact execDrawImage_leads h
  | clear color => exact execClear_leads h
  | flush => exact execFlush_leads h
  | sleep => exact execSleep_leads h
  | wake => exact execWake_leads h
  | close => exact execClose_leads h

/-- An illegal command completes at its first step (R130, R326). -/
theorem completeIllegal_leads (h : Poised st n armed s) (hc : s.closePending = false) (hst : st = .begin)
    (hrest : restingState s.state = true) : Leads Inv (completeIllegal s) := by
  subst hst
  have hs := reply_none_eq (h.reply_none rfl) ▸ h.settled hc (by simp)
  simp only [completeIllegal, h.sp]
  split_ifs <;> exact Leads.next (inv_complete _ hs hrest)

theorem runCommand_leads (h : Poised st n armed s) (hc : s.closePending = false) : Leads Inv (runCommand s) := by
  unfold runCommand
  cases hd : decode (asmWords s) with
  | ok a => exact exec_leads { h with decoded := ⟨a.2, hd⟩, noClose := hc }
  | error e =>
    obtain ⟨-, ⟨hst, hrest⟩, ⟨op, rfl⟩ | ⟨⟨op, rfl⟩, -⟩⟩ :=
      (commandOk_illegal (s := { s with reply := none }) h.sp hd).1 h.inv.command
    · exact completeIllegal_leads h hc hst hrest
    · exact completeIllegal_leads h hc hst hrest

/-- Abandonment of an executing command, from whatever step with no transfer outstanding (R303): with the delay and the
lock request withdrawn, it is Deselect, Release and ResetHigh from the levels of that step. -/
theorem inv_abandon (h : Inv { s with reply := none, closePending := false }) (hb : s.busy = true)
    (hx : s.xfer.pending = false) : Inv (abandon s) := by
  obtain ⟨armed, hwire, -⟩ := h.wire
  have hs : Settled (s.csN, s.rstN, s.locked) armed
      { s with delay := none, lockReq := s.lockReq && s.locked, reply := none, closePending := false } := {
    params := h.params
    pbForm := h.pbForm
    pbRange := h.pbRange
    tbForm := h.tbForm
    tbRange := h.tbRange
    window := h.window
    noReply := rfl
    noTransfer := hx
    noDelay := rfl
    noClose := rfl
    asmPhase := h.notBoth hb
    levels := rfl
    lock := by
      have hshared : s.lockReq = true → s.params.sharedBus = true := h.lockShared
      have hkept : s.locked = true → s.params.sharedBus = true → s.lockReq = true := h.lockKept
      show (s.lockReq && s.locked) = (s.locked && s.params.sharedBus)
      rw [Bool.eq_iff_iff, Bool.and_eq_true, Bool.and_eq_true]
      exact ⟨fun ⟨hr, hl⟩ => ⟨hl, hshared hr⟩, fun ⟨hl, hbus⟩ => ⟨hkept hl hbus, hl⟩⟩
    wire := hwire }
  exact inv_complete .closedError (armed := armed)
    (s := { resetHighLine (releaseLock (deselectLine { s with
      delay := none, lockReq := s.lockReq && s.locked, reply := none, closePending := false })) with state := .closed })
    { hs.deselectLine.releaseLock.resetHighLine with } rfl

/-- A command about to go on leads on within the invariant: abandoned when a close is pending, else by its step. -/
theorem proceed_leads (h : Poised st n armed s) : Leads Inv (proceed s) := by
  unfold proceed
  split_ifs with hc
  · exact Leads.next (inv_abandon { h.inv with closing := fun hc' => by simp at hc' } h.busy h.noTransfer)
  · exact runCommand_leads h (by simpa [h.noTransfer] using hc)

/-! ## The moves that make a command go on -/

theorem Inv.sp_opcode (h : Inv s) {op : Byte} (hsp : s.sp = .run op st n) : op = opField s.asm.hdr := by
  have hcmd := h.command
  simp only [commandOk, hsp, Bool.and_eq_true, beq_iff_eq] at hcmd
  exact hcmd.1.1

/-- Out of a hold the core's step is about to run (R270). -/
theorem Inv.poised_core {op : Byte} (h : Inv s) (hsp : s.sp = .run op st n) (hx : s.xfer.pending = false)
    (hd : s.delay = none) : ∃ armed, Poised st n armed s := by
  obtain ⟨armed, hwire, harm⟩ := h.wire
  have hr := h.noReply
  exact ⟨armed, {
    inv := (reply_none_eq hr).symm ▸ h
    sp := h.sp_opcode hsp ▸ hsp
    noTransfer := hx
    noDelay := hd
    wire := hwire
    armedAt := by simpa [hr, hsp, spStep] using harm
    answered := absurd hr
    granted := fun _ _ hne => absurd hr hne }⟩

/-- A property that holds of the step SP is at, and not when it is IDLE, holds of a step of the words in ASM. -/
theorem Inv.running_step (h : Inv s) {f : SeqStep → Bool} (hf : spStep s.sp false f = true) :
    ∃ st n, s.sp = .run (opField s.asm.hdr) st n ∧ f st = true := by
  cases hsp : s.sp with
  | idle => simp [hsp, spStep] at hf
  | run op st n => exact ⟨st, n, by rw [h.sp_opcode hsp], by simpa [hsp, spStep] using hf⟩

/-- The step that has a transfer outstanding (R161). -/
theorem Inv.transfer_step (h : Inv s) (hx : s.xfer.pending = true) :
    ∃ st n b, s.sp = .run (opField s.asm.hdr) st n ∧ stepMode st = some b ∧ s.dc = b := by
  obtain ⟨st, n, hsp, hst⟩ := h.running_step (h.transfer hx).1
  obtain ⟨b, hb⟩ := Option.isSome_iff_exists.1 hst
  exact ⟨st, n, b, hsp, hb, h.mode b (by rw [hsp]; exact hb)⟩

/-- A step with a transfer stands in an open frame and has no delay. -/
theorem stepLevels_of_mode {b : Bool} (h : stepMode st = some b) :
    stepLevels st = (false, true, true) ∧ stepDelays st = false ∧ st ≠ .acquire ∧ (b = true → stepArmed st = true) := by
  cases st with
  | group g m => cases m <;> simp_all [stepMode, stepLevels, stepDelays, stepArmed]
  | _ => simp_all [stepMode, stepLevels, stepDelays, stepArmed]

end Sys2Proof.Machine

/-!
PROOFS. The invariant along a step: the answers handed to the core, the assembler, the host's accesses and the agents'
moves (O46, O47, O48).
-/

namespace Sys2Proof.Machine
variable {lv : Bool × Bool × Bool} {armed : Bool} {s : State} {i : Instr} {st : SeqStep} {n : Nat}

/-- No delay and no Acquire is under way while a transfer is outstanding (R161). -/
theorem Inv.noDelay_of_transfer (h : Inv s) (hx : s.xfer.pending = true) : s.delay = none := by
  obtain ⟨st, n, b, hsp, hmode, -⟩ := h.transfer_step hx
  by_contra hd
  obtain ⟨ms, hms⟩ := Option.ne_none_iff_exists'.1 hd
  have hdelay := (h.delaying ms hms).2
  simp [hsp, spStep, (stepLevels_of_mode hmode).2.1] at hdelay

theorem Inv.noTimedHold_of_transfer (h : Inv s) (hx : s.xfer.pending = true) : inTimedHold s = false := by
  obtain ⟨st, n, b, hsp, hmode, -⟩ := h.transfer_step hx
  have hlevels := h.levels
  rw [hsp, spLevels, (stepLevels_of_mode hmode).1] at hlevels
  have hlk : s.locked = true := congrArg (·.2.2) hlevels
  simp [inTimedHold, h.noDelay_of_transfer hx, hlk]

/-- TRANSPORT's answer is recorded, and the step that requested the transfer is about to go on (R170). -/
theorem Inv.poised_transport (h : Inv s) (hx : s.xfer.pending = true) (a : Answer) :
    ∃ st n armed, Poised st n armed (recordAnswer a s) := by
  obtain ⟨st, n, b, hsp, hmode, hdc⟩ := h.transfer_step hx
  obtain ⟨hlv, hdelay, hacq, hdata⟩ := stepLevels_of_mode hmode
  obtain ⟨hcs, hrst, hlk⟩ : s.csN = false ∧ s.rstN = true ∧ s.locked = true := by
    simpa [hsp, spLevels, hlv] using h.levels
  obtain ⟨armed, hwire, harm⟩ := h.wire
  have hlen : 1 ≤ s.xfer.len := (h.transfer hx).2.1
  have hne : sentBytes s ≠ [] := by simp [sentBytes]; omega
  have harm' : b = true → armed = true := fun hb => harm (by simpa [hsp, spStep] using hdata hb)
  have hone : b = false → (sentBytes s).length = 1 := fun hb => by simpa [sentBytes] using h.oneByte hx (hdc.trans hb)
  have hwire' : readTrace s.params.sharedBus .start (s.trace ++ [.tx (modeOf s.dc) (sentBytes s) a]) =
      some { cs := s.csN, rst := s.rstN, locked := s.locked && s.params.sharedBus, armed := true } := by
    rw [readTrace_append, hwire]
    cases b <;> simp_all [readTrace, WireLevels.after, modeOf]
  exact ⟨st, n, true, {
    inv := { h with
      noReply := rfl
      transfer := fun ht => by simp at ht
      oneByte := fun ht => by simp at ht
      wire := ⟨true, hwire', fun _ => rfl⟩ }
    sp := hsp
    noTransfer := rfl
    noDelay := h.noDelay_of_transfer hx
    wire := hwire'
    armedAt := fun _ => rfl
    answered := fun _ => by simp [awaits, hmode]
    granted := fun hst => absurd hst hacq }⟩

/-- TIMER's answer ends the delay, and its step is about to go on (R174). -/
theorem Inv.poised_timer (h : Inv s) (hd : s.delay ≠ none) :
    ∃ st n armed, Poised st n armed { s with delay := none, reply := some .ok } := by
  obtain ⟨ms, hms⟩ := Option.ne_none_iff_exists'.1 hd
  obtain ⟨armed, hwire, harm⟩ := h.wire
  obtain ⟨st, n, hsp, hst⟩ := h.running_step (h.delaying ms hms).2
  have hmode : stepMode st = none := by
    by_contra hne
    obtain ⟨b, hb⟩ := Option.ne_none_iff_exists'.1 hne
    simp [(stepLevels_of_mode hb).2.1] at hst
  exact ⟨st, n, armed, {
    inv := { h with
      noReply := rfl
      delaying := fun ms hms => by simp at hms
      closing := fun hc => by
        have := (h.closing hc).2
        simp [inTimedHold, hms] at this }
    sp := hsp
    noTransfer := by
      by_contra hx
      exact hd (h.noDelay_of_transfer (by simpa using hx))
    noDelay := rfl
    wire := hwire
    armedAt := fun ha => harm (by simpa [hsp, spStep, hmode] using ha)
    answered := fun _ => by simp [awaits, hst]
    granted := fun hacq => by simp [hacq, stepDelays] at hst }⟩

/-- ARBITER's grant, and Acquire is about to go on (R176). -/
theorem Inv.poised_grant (h : Inv s) (hl : (s.lockReq && !s.locked) = true) :
    ∃ st n armed, Poised st n armed { s with reply := some .ok } := by
  obtain ⟨hreq, hlk⟩ : s.lockReq = true ∧ s.locked = false := by simpa using hl
  obtain ⟨armed, hwire, harm⟩ := h.wire
  obtain ⟨st, n, hsp, hacq⟩ := h.running_step (h.lockWait hreq hlk)
  obtain rfl : st = .acquire := by simpa using hacq
  have hx : s.xfer.pending = false := by
    by_contra hx
    have := (h.transfer (by simpa using hx)).1
    simp [hsp, spStep, stepMode] at this
  have hd : s.delay = none := by
    by_contra hd
    obtain ⟨ms, hms⟩ := Option.ne_none_iff_exists'.1 hd
    have := (h.delaying ms hms).2
    simp [hsp, spStep, stepDelays] at this
  exact ⟨.acquire, n, armed, {
    inv := { h with noReply := rfl }
    sp := hsp
    noTransfer := hx
    noDelay := hd
    wire := hwire
    armedAt := by simp [stepArmed, stepMode]
    answered := fun _ => rfl
    granted := fun _ _ _ => hreq }⟩

/-! ## The assembler -/

/-- A core that is not busy is idle, with every line and request at rest. -/
theorem Inv.idle (h : Inv s) (hb : s.busy = false) : s.sp = .idle := by
  cases hsp : s.sp with
  | idle => rfl
  | run op st n => simpa [hsp, spStep, hb] using h.busy

/-- What an idle core's invariant asks of the assembler is `assemblerOk`. -/
theorem Inv.withAsm (h : Inv s) (hb : s.busy = false) {a : Assembler} (ha : assemblerOk { s with asm := a } = true) :
    Inv { s with asm := a } :=
  { h with
    assembler := ha
    command := by
      have := h.command
      simpa [commandOk, h.idle hb] using this
    notBoth := fun hb' => by simp [hb] at hb' }

theorem decode_reservedBits {hdr : Word} {ws : List Word} {op : Byte}
    (h : decode (hdr :: ws) = .error (.reservedBits op)) : rsvzClear hdr = false := by
  simp only [decode] at h
  split_ifs at h with hdef hclear
  · simp only [decodeOp] at h
    split at h
    all_goals first
      | cases h
      | (split at h <;> cases h)
  · simpa using hclear
  · cases h

theorem stepOf_begin (i : Instr) (s : State) : stepOf i s .begin 0 = true := by cases i <;> rfl

/-- A command with all its operand words stands rightly at its first step (R126, R130). -/
theorem commandOk_start {a : Assembler} (hrest : restingState s.state = true)
    (hops : operandWords (opField a.hdr) ≤ a.opnd.length)
    (himage : opField a.hdr = 3 → verdictOk { s with asm := a } = true ∧ (rsvzClear a.hdr = true ∨ a.verdict ≠ .ok)) :
    commandOk (startCommand { s with asm := a }) = true := by
  have hsp : (startCommand { s with asm := a }).sp = .run (opField a.hdr) .begin 0 := rfl
  cases hd : decode (asmWords (startCommand { s with asm := a })) with
  | ok r =>
    refine (commandOk_decoded hsp (rest := r.2) (i := r.1) hd).2 ⟨⟨rfl, rfl⟩, ?_, ?_⟩
    · simp [Names, stepOf_begin, stateAt, hrest]
    · exact or_iff_not_imp_left.2 fun hop => (himage (not_not.1 hop)).1
  | error e =>
    have hwords : decode (a.hdr :: a.opnd) = .error e := hd
    refine (commandOk_illegal hsp hd).2 ⟨⟨rfl, rfl⟩, ⟨rfl, hrest⟩, ?_⟩
    cases e with
    | reservedOpcode op => exact .inl ⟨op, rfl⟩
    | reservedBits op =>
      have hclear := decode_reservedBits hwords
      refine .inr ⟨⟨op, rfl⟩, or_iff_not_imp_left.2 fun hop => ?_⟩
      exact (himage (not_not.1 hop)).2.resolve_left (by simp [hclear])
    | missingOperand op => exact absurd (decode_missingOperand hwords) (by omega)
    | noHeader => exact absurd hwords decode_noHeader

/-- The last word of a command with all its operand words starts it (R126). -/
theorem Inv.start (h : Inv s) (hb : s.busy = false) {a : Assembler}
    (hops : operandWords (opField a.hdr) ≤ a.opnd.length)
    (himage : opField a.hdr = 3 → verdictOk { s with asm := a } = true ∧ (rsvzClear a.hdr = true ∨ a.verdict ≠ .ok)) :
    Inv (startCommand { s with asm := a }) := by
  have hsp := h.idle hb
  have hrest : restingState s.state = true := by simpa [commandOk, hsp] using h.command
  obtain ⟨hcs, hrst, hlk⟩ : s.csN = true ∧ s.rstN = true ∧ s.locked = false := by
    simpa [hsp, spLevels] using h.levels
  have hclose : s.closePending = false := by
    by_contra hc
    simp [(h.closing (by simpa using hc)).1] at hb
  obtain ⟨armed, hwire, -⟩ := h.wire
  exact { h with
    busy := rfl
    levels := by simp [hcs, hrst, hlk, spLevels, stepLevels]
    lockWait := fun hl hu => by simpa [hsp, spStep] using h.lockWait hl hu
    transfer := fun hx => by simpa [hsp, spStep] using h.transfer hx
    mode := by simp [spStep, stepMode]
    delaying := fun ms hms => by simpa [hsp, spStep] using h.delaying ms hms
    closing := fun hc => by simp [hclose] at hc
    assembler := rfl
    command := commandOk_start hrest hops himage
    notBoth := fun _ => rfl
    wire := ⟨armed, hwire, by simp [spStep, stepArmed]⟩ }

/-- A header word starts its command or waits for its operand words (R126). -/
theorem acceptHeader_inv (w : Word) (h : Inv s) (hb : s.busy = false) : Inv (acceptHeader w s) := by
  unfold acceptHeader
  dsimp only
  split
  · rename_i h0
    exact h.start hb (by simp [h0]) fun h3 => by simp [h3, operandWords] at h0
  · rename_i hm
    exact h.withAsm hb (by simpa [assemblerOk] using Nat.succ_le_of_lt (Nat.pos_of_ne_zero hm))

/-- A legal header's must-be-zero bits are 0 (R130). -/
theorem decode_ok_rsvzClear {hdr : Word} {ws rest : List Word} (h : decode (hdr :: ws) = .ok (i, rest)) :
    rsvzClear hdr = true := by
  simp only [decode] at h
  split_ifs at h with hdef hclear
  exact hclear

/-- The verdict found at a WH word is OK only for an image in the panel, in a state in which it executes, with a legal
header (R248, R325, R327). -/
theorem verdictOf_image {a : Assembler} (hop : opField a.hdr = 3) (hv : a.verdict = verdictOf (a.hdr :: a.opnd) s) :
    verdictOk { s with asm := a } = true ∧ (rsvzClear a.hdr = true ∨ a.verdict ≠ .ok) := by
  by_cases hok : a.verdict = .ok
  · obtain ⟨i, rest, hd, hcheck⟩ := verdictOf_ok (hv.symm.trans hok)
    have hopcode : i.opcode = 3 := (decode_ok_opcode hd).trans hop
    obtain ⟨-, hvalid, hbounds⟩ := check_eq_ok hcheck
    cases i with
    | drawImage x y w h =>
      obtain ⟨xy, wh, hops, rfl, rfl, rfl, rfl⟩ := decode_drawImage hd
      refine ⟨?_, .inl (decode_ok_rsvzClear hd)⟩
      simp only [inBounds] at hbounds
      simp only [validIn] at hvalid
      simp [verdictOk, hok, imageFits, imageXY, imageW, imageH, imageWH, hops, hbounds, hvalid]
    | _ => simp [Instr.opcode] at hopcode
  · exact ⟨by simp [verdictOk, hok], .inr hok⟩

theorem le_two_mul_ceilDiv (m : Nat) : m ≤ 2 * ceilDiv m 2 := by
  unfold ceilDiv
  omega

/-- What `assemblerOk` says while an image's data words are received (R126, R252). -/
theorem assemblerOk_data (hp : s.asm.phase = .data) : assemblerOk s = true ↔
    opField s.asm.hdr = 3 ∧ s.asm.opnd.length = 2 ∧ 1 ≤ s.asm.left ∧
      imageW s * imageH s ≤ s.asm.k + 2 * s.asm.left ∧ verdictOk s = true ∧
      (rsvzClear s.asm.hdr = true ∨ s.asm.verdict ≠ .ok) := by
  simp [assemblerOk, hp, and_assoc]

/-- An operand word: after the last, the command starts or an image's data words follow (R126). -/
theorem acceptOperand_inv (w : Word) (h : Inv s) (hb : s.busy = false) (hp : s.asm.phase = .oper) :
    Inv (acceptOperand w s) := by
  obtain ⟨hleft, hops⟩ : 1 ≤ s.asm.left ∧ s.asm.opnd.length + s.asm.left = operandWords (opField s.asm.hdr) := by
    simpa [assemblerOk, hp] using h.assembler
  have hkind : opField s.asm.hdr = 2 ∧ s.asm.opnd.length + s.asm.left = 1 ∨
      opField s.asm.hdr = 3 ∧ s.asm.opnd.length + s.asm.left = 2 := by
    rcases operandWords_cases (opField s.asm.hdr) with ⟨h0, -⟩ | ⟨h1, h2⟩ | ⟨h1, h3⟩
    · omega
    · exact .inl ⟨h2, hops.trans h1⟩
    · exact .inr ⟨h3, hops.trans h1⟩
  unfold acceptOperand
  dsimp only
  split_ifs with hlast hop hzero
  · exact h.start hb (by simp; omega) fun h3 => absurd (hop.symm.trans h3) (by decide)
  · obtain ⟨hop3, hlen⟩ := hkind.resolve_left fun h2 => hop h2.1
    exact h.start hb (by simp; omega) fun _ => verdictOf_image hop3 rfl
  · obtain ⟨hop3, hlen⟩ := hkind.resolve_left fun h2 => hop h2.1
    refine h.withAsm hb ?_
    obtain ⟨hverdict, hlegal⟩ := verdictOf_image (s := s)
      (a := { s.asm with
        opnd := s.asm.opnd ++ [w], verdict := verdictOf (s.asm.hdr :: (s.asm.opnd ++ [w])) s }) hop3 rfl
    exact (assemblerOk_data rfl).2 ⟨hop3, by simp; omega, Nat.pos_of_ne_zero hzero,
      (le_two_mul_ceilDiv _).trans (Nat.le_add_left _ _), hverdict, hlegal⟩
  · exact h.withAsm hb (by simp [assemblerOk, hp]; omega)

/-- A pixel of an accepted image has an index inside PB (R82, R247, R248). -/
theorem imagePixelIndex_lt (hv : verdictOk s = true) (hok : s.asm.verdict = .ok) {k : Nat}
    (hk : k < imageW s * imageH s) : imagePixelIndex s k < pbSize s.params := by
  have hfit : imageFits s = true := by
    simp [verdictOk, hok] at hv
    exact hv.1
  obtain ⟨hx, hy⟩ := imageInPanel_pixels hfit (by omega)
  have hw : 0 < imageW s := Nat.pos_of_mul_pos_right (by omega : 0 < imageW s * imageH s)
  have hcol : k % imageW s < imageW s := Nat.mod_lt _ hw
  have hrow : k / imageW s < imageH s := Nat.div_lt_of_lt_mul hk
  exact pixelIndex_lt (by omega) (by omega)

/-- What one pixel of a data word leaves: the invariant, and the pixel counted or the image's last one past. -/
structure PixelTaken (s t : State) : Prop where
  inv : Inv t
  busy : t.busy = false
  phase : t.asm.phase = s.asm.phase
  opnd : t.asm.opnd = s.asm.opnd
  left : t.asm.left = s.asm.left
  counted : imageW s * imageH s ≤ t.asm.k ∨ t.asm.k = s.asm.k + 1

/-- The image's size is that of the words received before its data. -/
theorem PixelTaken.size {t : State} (h : PixelTaken s t) : imageW t * imageH t = imageW s * imageH s := by
  simp only [imageW, imageH, imageWH, h.opnd]

theorem drawPixel_leads (p : Half) (h : Inv s) (hb : s.busy = false) (hp : s.asm.phase = .data) :
    Leads (PixelTaken s) (drawPixel p s) := by
  obtain ⟨hop, hlen, hleft, hcount, hverdict, hlegal⟩ := (assemblerOk_data hp).1 h.assembler
  have hcount' : imageW s * imageH s ≤ s.asm.k + 1 + 2 * s.asm.left := by omega
  have counted : Inv (countPixel s) :=
    h.withAsm hb ((assemblerOk_data (s := countPixel s) hp).2 ⟨hop, hlen, hleft, hcount', hverdict, hlegal⟩)
  unfold drawPixel
  split_ifs with hk hok
  · have hidx := imagePixelIndex_lt hverdict hok hk
    rw [storePixel_eq_next.2 ⟨hidx, rfl⟩, andThen_next]
    exact Leads.next {
      inv := { counted with
        pbForm := put_wf _ _ h.pbForm
        pbRange := put_below _ hidx h.pbRange }
      busy := hb
      phase := rfl
      opnd := rfl
      left := rfl
      counted := .inr rfl }
  · exact Leads.next ⟨counted, hb, rfl, rfl, rfl, .inr rfl⟩
  · exact Leads.next ⟨h, hb, rfl, rfl, rfl, .inl (by omega)⟩

theorem acceptData_leads (w : Word) (h : Inv s) (hb : s.busy = false) (hp : s.asm.phase = .data) :
    Leads Inv (acceptData w s) := by
  obtain ⟨t, ht, htaken⟩ := drawPixel_leads (loHalf w) h hb hp
  have htp : t.asm.phase = .data := htaken.phase.trans hp
  obtain ⟨u, hu, hutaken⟩ := drawPixel_leads (hiHalf w) htaken.inv htaken.busy htp
  have hup : u.asm.phase = .data := hutaken.phase.trans htp
  obtain ⟨hop, hlen, hleft, hcount, hverdict, hlegal⟩ := (assemblerOk_data hup).1 hutaken.inv.assembler
  have htsize := htaken.size
  have husize := hutaken.size
  have hsleft : u.asm.left = s.asm.left := hutaken.left.trans htaken.left
  have hcount' : imageW u * imageH u ≤ u.asm.k + 2 * (u.asm.left - 1) := by
    have hs := ((assemblerOk_data hp).1 h.assembler).2.2.2.1
    have ht := htaken.counted
    have hu := hutaken.counted
    rw [husize, htsize, hsleft]
    rw [htsize] at hu
    omega
  unfold acceptData drawData
  rw [ht, andThen_next, hu, andThen_next]
  dsimp only
  refine Leads.next ?_
  split_ifs with hlast
  · exact hutaken.inv.start hutaken.busy (by simp [hop, hlen, operandWords]) fun _ => ⟨hverdict, hlegal⟩
  · exact hutaken.inv.withAsm hutaken.busy ((assemblerOk_data
      (s := { u with asm := { u.asm with left := u.asm.left - 1 } }) hup).2
      ⟨hop, hlen, Nat.pos_of_ne_zero hlast, hcount', hverdict, hlegal⟩)

/-- An accepted command word leads on within the invariant (R126). -/
theorem accept_leads (w : Word) (h : Inv s) (hb : s.busy = false) : Leads Inv (accept w s) := by
  unfold accept
  split
  · exact Leads.next (acceptHeader_inv w h hb)
  · exact Leads.next (acceptOperand_inv w h hb ‹_›)
  · exact acceptData_leads w h hb ‹_›

/-! ## Host accesses -/

/-- A close request, in whatever state it comes (R302, R303). -/
theorem closeRequest_inv (h : Inv s) : Inv (closeRequest s) := by
  rcases closeRequest_cases s with ⟨-, he⟩ | ⟨hb, hhold, hx, he⟩ | ⟨hb, hhold, he⟩ | ⟨hb, hp, he⟩ | ⟨hb, hp, he⟩ <;>
    rw [he]
  · exact h
  · exact inv_abandon { h with noReply := rfl, closing := fun hc => by simp at hc } hb hx
  · have hfree : inTimedHold s = false := by
      rcases hhold with hfree | hx
      · exact hfree
      · exact h.noTimedHold_of_transfer hx
    exact { h with closing := fun _ => ⟨hb, hfree⟩ }
  · exact { h with
      assembler := by simp [assemblerOk, hp]
      command := by simp [commandOk, h.idle hb, restingState] }
  · exact { h with
      busy := rfl
      levels := h.idle hb ▸ h.levels
      lockWait := h.idle hb ▸ h.lockWait
      transfer := h.idle hb ▸ h.transfer
      mode := by simp [spStep]
      delaying := h.idle hb ▸ h.delaying
      closing := fun hc => absurd (h.closing hc).1 (by simp [hb])
      assembler := rfl
      command := rfl
      notBoth := fun _ => rfl
      wire := h.idle hb ▸ h.wire }

theorem writeCtrl_inv (w : Word) (h : Inv s) : Inv (writeCtrl w s) := by
  unfold writeCtrl
  dsimp only
  split_ifs
  · exact closeRequest_inv (s := { s with doneIe := w.getLsbD 0 }) { h with }
  · exact { h with }

theorem writeReg_leads (off : Nat) (w : Word) (h : Inv s) : Leads Inv (writeReg off w s) := by
  unfold writeReg
  split
  · cases hb : s.busy with
    | false => exact writeCmd_of_ready w hb ▸ accept_leads w h hb
    | true => exact writeCmd_of_busy w hb ▸ Leads.next { h with }
  · exact Leads.next (writeCtrl_inv w h)
  · exact Leads.next { h with }
  · exact Leads.next h


/-- The outcome of an access at `addr` of `width` bits that the block does not define: refused as one outside the block
(R88), or as one inside it that is not a naturally aligned 32-bit access (R87) [log 11]. -/
def AccessRefused (p : Params) (addr width : Nat) (o : Out) : Prop :=
  o = .refused .outsideBlock ∧ (addr < p.regBase ∨ p.regBase + 0x3F < addr) ∨
    o = .refused .undefinedAccess ∧ p.regBase ≤ addr ∧ addr ≤ p.regBase + 0x3F ∧
      (width ≠ 32 ∨ (addr - p.regBase) % 4 ≠ 0)

theorem guardAccess_leads {addr width : Nat} {body : Nat → Out} (hbody : ∀ off, Leads Inv (body off)) :
    Leads Inv (guardAccess addr width body s) ∨ AccessRefused s.params addr width (guardAccess addr width body s) := by
  unfold guardAccess AccessRefused
  split_ifs with hin hdef
  · exact .inl (hbody _)
  · simp only [inBlock, Bool.and_eq_true, decide_eq_true_eq] at hin
    simp only [definedAccess, Bool.and_eq_true, decide_eq_true_eq] at hdef
    exact .inr (.inr ⟨rfl, hin.1, by omega, by tauto⟩)
  · simp only [inBlock, Bool.and_eq_true, decide_eq_true_eq] at hin
    exact .inr (.inl ⟨rfl, by omega⟩)

/-- A host access leads on within the invariant unless the block does not define it. -/
theorem hostAccess_leads (a : Access) (h : Inv s) : Leads Inv (hostAccess a s) ∨
    ∃ addr width, (a = .read addr width ∨ ∃ v, a = .write addr width v) ∧
      AccessRefused s.params addr width (hostAccess a s) := by
  cases a with
  | read addr width =>
    have hload (off : Nat) : Leads Inv (.next { s with rdata := readReg s off }) := Leads.next { h with }
    exact (guardAccess_leads hload).imp_right fun hr => ⟨addr, width, .inl rfl, hr⟩
  | write addr width v =>
    exact (guardAccess_leads fun off => writeReg_leads off v h).imp_right fun hr => ⟨addr, width, .inr ⟨v, rfl⟩, hr⟩

/-- The HOST's step: a store to CTRL is never refused, so in the HOST's hold no access is (R20, R39). -/
theorem hostStep_leads (a : Access) (h : Inv s) : Leads Inv (hostStep a s) ∨
    ∃ addr width, (a = .read addr width ∨ ∃ v, a = .write addr width v) ∧ s.held = none ∧
      AccessRefused s.params addr width (hostStep a s) := by
  cases hheld : s.held with
  | none =>
    rw [hostStep_of_not_held a hheld]
    exact (hostAccess_leads a h).imp_right fun ⟨addr, width, ha, hr⟩ => ⟨addr, width, ha, rfl, hr⟩
  | some w =>
    refine .inl ?_
    cases hctrl : isCtrlStore s.params a with
    | false => exact hostStep_of_held hheld hctrl ▸ Leads.next h
    | true =>
      obtain ⟨v, rfl⟩ := (isCtrlStore_iff _ _).1 hctrl
      rw [hostStep_of_ctrlStore hctrl, hostAccess_write_offset v s (by decide) (by decide)]
      exact writeReg_leads _ v h

/-! ## One agent's move -/

theorem coreStep_leads (h : Inv s) : Leads Inv (coreStep s) := by
  cases hsp : s.sp with
  | idle =>
    have hb : s.busy = false := by rw [h.busy, hsp]; rfl
    cases hheld : s.held with
    | none => exact ⟨s, by simp [coreStep, hsp, hheld], h⟩
    | some w =>
      rw [coreStep_of_idle_held hsp hheld hb]
      exact accept_leads w (s := { s with held := none }) { h with } hb
  | run op st n =>
    by_cases hhold : inHold s = true ∧ (s.closePending = false ∨ s.xfer.pending = true)
    · exact ⟨s, by simp only [coreStep, hsp, if_pos hhold], h⟩
    · have hx : s.xfer.pending = false := by
        by_contra hx
        have hx : s.xfer.pending = true := by simpa using hx
        exact hhold ⟨(inHold_iff s).2 (.inl hx), .inr hx⟩
      have hd : s.delay = none := by
        by_contra hd
        have htimed : inTimedHold s = true := by simp [inTimedHold, Option.isSome_iff_ne_none, hd]
        refine hhold ⟨(inHold_iff s).2 (.inr (.inl hd)), .inl ?_⟩
        by_contra hc
        simp [(h.closing (by simpa using hc)).2] at htimed
      obtain ⟨armed, hp⟩ := h.poised_core hsp hx hd
      simp only [coreStep, hsp, if_neg hhold]
      exact proceed_leads hp

theorem inv_powerOn {p : Params} (draw : Nat) (h : p.wellFormed = true) : Inv (State.powerOn p draw) where
  params := h
  pbForm := rfl
  pbRange := by simp [State.powerOn]
  tbForm := rfl
  tbRange := by simp [State.powerOn]
  window := .inr rfl
  noReply := rfl
  busy := rfl
  levels := rfl
  lockShared := by simp [State.powerOn]
  lockKept := by simp [State.powerOn]
  lockWait := by simp [State.powerOn]
  transfer := by simp [State.powerOn]
  oneByte := by simp [State.powerOn]
  mode := by simp [State.powerOn, spStep]
  delaying := by simp [State.powerOn]
  closing := by simp [State.powerOn]
  assembler := rfl
  command := rfl
  notBoth := fun _ => rfl
  wire := ⟨false, by simp [State.powerOn, readTrace, WireLevels.start], by simp [State.powerOn, spStep]⟩

/-- Settles O46: every field of the invariant in the state SEQ has after reset. -/
theorem resetMeetsInvariant : Obligations.ResetMeetsInvariant :=
  ⟨inv_powerOn 0 (by decide), fun _ draw h => inv_powerOn draw h⟩

theorem move_leads (m : Move) (h : Inv s) : Leads Inv (move m s) := by
  cases m with
  | rest => exact Leads.next h
  | core => exact coreStep_leads h
  | transport a =>
    show Leads Inv (transportAnswer a s)
    unfold transportAnswer
    split_ifs with hx
    · obtain ⟨st, n, armed, hp⟩ := h.poised_transport hx a
      exact proceed_leads hp
    · exact Leads.next h
  | timer =>
    show Leads Inv (timerAnswer s)
    unfold timerAnswer
    split_ifs with hd
    · obtain ⟨st, n, armed, hp⟩ := h.poised_timer (Option.isSome_iff_ne_none.1 hd)
      exact proceed_leads hp
    · exact Leads.next h
  | grant =>
    show Leads Inv (grantLock s)
    unfold grantLock
    split_ifs with hl
    · obtain ⟨st, n, armed, hp⟩ := h.poised_grant hl
      exact proceed_leads hp
    · exact Leads.next h
  | lateAnswer => exact Leads.next h
  | blockReset => exact Leads.next { inv_powerOn (s.draw + 1) h.params with }

/-! ## One step of the machine -/

/-- A turn leads on within the invariant, or its host access is refused (R96) [log 11]. -/
theorem takeTurn_leads (u : Turn) (h : Inv s) : Leads Inv (takeTurn u s) ∨
    ∃ a addr width, u.host = some a ∧ (a = .read addr width ∨ ∃ v, a = .write addr width v) ∧ s.held = none ∧
      AccessRefused s.params addr width (takeTurn u s) := by
  obtain ⟨host, m⟩ := u
  cases host with
  | none => exact .inl (move_leads m h)
  | some a =>
    rcases hostStep_leads a h with hnext | ⟨addr, width, ha, hheld, hr⟩
    · exact .inl (hnext.andThen fun t ht => move_leads m ht)
    · refine .inr ⟨a, addr, width, rfl, ha, hheld, ?_⟩
      rcases hr with ⟨ho, hout⟩ | ⟨ho, hin⟩
      · exact .inl ⟨by simp [takeTurn, ho], hout⟩
      · exact .inr ⟨by simp [takeTurn, ho], hin⟩

/-- Settles O48: the core and each agent's move lead on within the invariant, so the step stops only where the turn's host
access is refused. -/
theorem noStepFaults : Obligations.NoStepFaults := by
  intro s h
  cases ht : s.turns with
  | nil =>
    obtain ⟨t, hstep, -⟩ := coreStep_leads h
    exact .inl ⟨t, (step_of_turns_nil ht).trans hstep⟩
  | cons u rest =>
    rw [step_of_turns_cons ht]
    rcases takeTurn_leads u (s := { s with turns := rest }) { h with } with ⟨t, hstep, -⟩ | ⟨a, addr, width, hu, ha, hheld, hr⟩
    · exact .inl ⟨t, hstep⟩
    · exact .inr ⟨u, rest, a, addr, width, rfl, hu, ha, hheld, hr⟩

/-- Settles O47: what leads on within the invariant has no other next state than one that meets it. -/
theorem stepKeepsInvariant : Obligations.StepKeepsInvariant := by
  intro s t h hstep
  rcases step_eq_next hstep with ⟨-, hcore⟩ | ⟨u, rest, -, hturn⟩
  · exact (coreStep_leads h).of_eq_next hcore
  · rcases takeTurn_leads u (s := { s with turns := rest }) { h with } with hleads | ⟨a, addr, width, -, -, -, hr⟩
    · exact hleads.of_eq_next hturn
    · rw [hturn] at hr
      rcases hr with ⟨ho, -⟩ | ⟨ho, -⟩ <;> cases ho

end Sys2Proof.Machine

/-!
PROOFS. The registers a host loads, its stores and what they do by offset, the line and request micro-operations, the
close request and block reset (O6, O7, O9, O10, O11, O34, O35, O55, O58).
-/

namespace Sys2Proof.Machine

/-! ## The fields of the registers -/

section
variable (s : State)

theorem statusReg_state : (statusReg s).extractLsb' 0 4 = s.state.code := by
  simp only [statusReg, BitVec.extractLsb'_append_eq_right]

theorem statusReg_busy : (statusReg s).getLsbD 4 = s.busy := by
  simp only [statusReg, BitVec.getLsbD_append]
  simp

theorem statusReg_cmdReady : (statusReg s).getLsbD 5 = !s.busy := by
  simp only [statusReg, BitVec.getLsbD_append]
  simp [cmdReady]

theorem statusReg_result : (statusReg s).extractLsb' 8 4 = s.result.code := by
  simp (disch := omega) only [statusReg, BitVec.extractLsb'_append_eq_of_le, Nat.reduceSub,
    BitVec.extractLsb'_append_eq_right]

theorem statusReg_lastOp : (statusReg s).extractLsb' 12 8 = s.lastOp := by
  simp (disch := omega) only [statusReg, BitVec.extractLsb'_append_eq_of_le, Nat.reduceSub,
    BitVec.extractLsb'_append_eq_right]

theorem statusReg_reserved : (statusReg s).extractLsb' 27 5 = 0 := by
  simp (disch := omega) only [statusReg, BitVec.extractLsb'_append_eq_of_le]
  rfl

theorem intReg_done : (intReg s).getLsbD 0 = s.intDone := by
  simp only [intReg, BitVec.getLsbD_append]
  simp

theorem intReg_err : (intReg s).getLsbD 1 = s.intErr := by
  simp only [intReg, BitVec.getLsbD_append]
  simp

end

/-- The numbers of R33. -/
theorem DriverState.code_toNat (d : DriverState) : d.code.toNat = (match d with
    | .uninit => 0 | .resetting => 1 | .initializing => 2 | .ready => 3 | .flushing => 4 | .sleeping => 5
    | .closed => 6) := by cases d <;> rfl

/-- The numbers of R320. -/
theorem Code.code_toNat (c : Code) : c.code.toNat = (match c with
    | .ok => 0 | .outOfBounds => 1 | .transportError => 2 | .initError => 3 | .closedError => 4 | .flushError => 5
    | .invalidState => 6 | .illegalCommand => 7) := by cases c <;> rfl

/-- Settles O6: each field at its bits. -/
theorem statusRegisterFields : Obligations.StatusRegisterFields := by
  intro s r
  refine ⟨rfl, ?state, statusReg_busy s, statusReg_cmdReady s, ?_, ?_, ?result, statusReg_lastOp s, ?_, ?_, ?_, ?_, ?_, ?_, ?_,
    statusReg_reserved s⟩
  case state => exact (congrArg BitVec.toNat (statusReg_state s)).trans s.state.code_toNat
  case result => exact (congrArg BitVec.toNat (statusReg_result s)).trans s.result.code_toNat
  all_goals
    show (statusReg s).getLsbD _ = _
    simp only [statusReg, BitVec.getLsbD_append]
    simp [assembling]

/-- The value of two fields side by side (R15). -/
theorem toNat_append_fields {n m : Nat} (x : BitVec n) (y : BitVec m) :
    (x ++ y).toNat = y.toNat + 2 ^ m * x.toNat := by
  rw [BitVec.toNat_append, ← Nat.shiftLeft_add_eq_or_of_lt y.isLt, Nat.shiftLeft_eq]
  ring

/-- A defined load returns the register at its offset (R31, R87, R90). -/
theorem hostAccess_read_offset {off : Nat} (s : State) (hlt : off < 0x40) (h4 : off % 4 = 0) :
    hostAccess (.read (s.params.regBase + off) 32) s = .next { s with rdata := readReg s off } := by
  have hin : inBlock s.params (s.params.regBase + off) = true := by simpa [inBlock] using hlt
  have hdef : definedAccess s.params (s.params.regBase + off) 32 = true := by simpa [definedAccess] using h4
  simp only [hostAccess, guardAccess, hin, hdef, if_true, Nat.add_sub_cancel_left]

theorem ctrlReg_toNat (s : State) : (ctrlReg s).toNat = s.doneIe.toNat := by
  simp only [ctrlReg, toNat_append_fields]
  simp

theorem intReg_toNat (s : State) : (intReg s).toNat = s.intDone.toNat + 2 * s.intErr.toNat := by
  simp only [intReg, toNat_append_fields]
  simp

theorem pairWord_toNat (hi lo : Half) : (pairWord hi lo).toNat = lo.toNat + 2 ^ 16 * hi.toNat :=
  toNat_append_fields hi lo

theorem cfgReg_toNat (s : State) :
    (cfgReg s).toNat = s.cfg.orient.toNat + 4 * s.cfg.bgr.toNat + 8 * s.cfg.inv.toNat := by
  simp only [cfgReg, toNat_append_fields]
  simp
  omega

/-- The registers that read the parameters hold them unchanged (R44, R47). -/
theorem readReg_params {s : State} (h : s.params.wellFormed = true) :
    (readReg s 0x18).toNat = s.params.panelW + 2 ^ 16 * s.params.panelH ∧
      (readReg s 0x24).toNat = s.params.maxChunkBytes := by
  have hpanel := panel_bounds h
  have hchunk : s.params.maxChunkBytes < 2 ^ 32 := by
    simp only [Params.wellFormed, Bool.and_eq_true, decide_eq_true_eq] at h
    omega
  refine ⟨?_, ?_⟩
  · show (pairWord _ _).toNat = _
    rw [pairWord_toNat, BitVec.toNat_ofNat, BitVec.toNat_ofNat]
    omega
  · exact (BitVec.toNat_ofNat ..).trans (Nat.mod_eq_of_lt hchunk)

theorem readReg_reserved (s : State) {off : Nat} (h : 0x28 ≤ off) : readReg s off = 0 := by
  unfold readReg
  split <;> first | omega | rfl

/-- Settles O7: the load by its offset, and each register by its fields. -/
theorem hostLoadReturnsTheRegister : Obligations.HostLoadReturnsTheRegister := by
  intro s off hlt h4
  exact ⟨hostAccess_read_offset s hlt h4, rfl, rfl, ctrlReg_toNat s, intReg_toNat s, pairWord_toNat _ _,
    pairWord_toNat _ _, readReg_params, cfgReg_toNat s, pairWord_toNat _ _, readReg_reserved s⟩

/-! ## Stores -/

/-- A store elsewhere than to CMD, CTRL and INT does nothing (R31, R48). -/
theorem writeReg_ignored {off : Nat} (v : Word) (s : State) (hcmd : off ≠ 0x00) (hctrl : off ≠ 0x08)
    (hint : off ≠ 0x0C) : writeReg off v s = .next s := by
  unfold writeReg
  split
  · exact absurd rfl hcmd
  · exact absurd rfl hctrl
  · exact absurd rfl hint
  · rfl

/-- Settles O9, offset by offset: none of them has a store of its own. -/
theorem readOnlyOffsetsIgnoreStores : Obligations.ReadOnlyOffsetsIgnoreStores := by
  intro s off v hlt h4 hcmd hctrl hint
  rw [hostAccess_write_offset v s hlt h4, writeReg_ignored v s hcmd hctrl hint]

theorem hostAccess_write_int (v : Word) (s : State) :
    hostAccess (.write (s.params.regBase + 0x0C) 32 v) s = .next (writeInt v s) :=
  hostAccess_write_offset v s (by decide) (by decide)

/-- Settles O10: by the two bits written. -/
theorem interruptFlagsClearByWritingOne : Obligations.InterruptFlagsClearByWritingOne := by
  intro s v
  rw [hostAccess_write_int]
  cases hdone : v.getLsbD 0 <;> cases herr : v.getLsbD 1 <;> simp only [writeInt, hdone, herr, if_true, Bool.not_true,
    Bool.not_false, Bool.and_true, Bool.and_false, Bool.false_eq_true, if_false]

/-- Settles O11: STATUS and INT by their fields, in the state a completion leaves. -/
theorem completionVisibleInRegisters : Obligations.CompletionVisibleInRegisters := by
  intro c s t
  refine ⟨?_, statusReg_lastOp t, statusReg_busy t, statusReg_cmdReady t, ?_, 
    intReg_done t, (intReg_err t).trans ?_, ?_, rfl⟩
  · exact (congrArg BitVec.toNat (statusReg_result t)).trans c.code_toNat
  · exact (statusReg_state t).trans (statusReg_state s).symm
  · cases c <;> simp [t]
  · simp [irq, t]

/-! ## Micro-operations -/

/-- Settles O34: each line by its level before, and the fault of R161. -/
theorem lineOperationsRecordChanges : Obligations.LineOperationsRecordChanges := by
  intro s
  refine ⟨fun hx => ?_, fun hx line => by simp [lineOp, hx]⟩
  simp only [lineOp_ready _ hx]
  refine ⟨?_, ?_, rfl, rfl, ?_, ?_⟩
  · cases hcs : s.csN <;> simp [selectLine, hcs]
  · cases hcs : s.csN <;> simp [deselectLine, hcs]
  · cases hrst : s.rstN <;> simp [resetLowLine, hrst]
  · cases hrst : s.rstN <;> simp [resetHighLine, hrst]

/-- Settles O35: what is staged is what is sent, and the two faults by the request's own tests. -/
theorem requestSendsItsStagedBytes : Obligations.RequestSendsItsStagedBytes := by
  intro bytes s
  refine ⟨fun hx hpos hfit => ?_, fun hx => by simp [requestTransfer, hx], fun hx hbad => ?_⟩
  · have hreq := requestTransfer_eq_next.2 ⟨⟨hx, hpos, hfit⟩, rfl⟩
    have hsent := sentBytes_requestTransfer hreq
    exact ⟨_, hreq, rfl, hsent, fun a => readTb_requestTransfer hreq, fun a => by
      rw [recordAnswer_trace, hsent]; rfl⟩
  · simp only [requestTransfer, hx, Bool.false_eq_true, if_false, if_pos hbad]

/-! ## The close request, and block reset -/

section
variable {s : State}

theorem closeRequest_of_closed (h : s.state = .closed) : closeRequest s = s := if_pos h

theorem closeRequest_of_idle (h : s.state ≠ .closed) (hb : s.busy = false) (hp : s.asm.phase = .none) :
    closeRequest s = { s with state := .closed } := by
  simp only [closeRequest, if_neg h, hb, hp, Bool.false_eq_true, if_false, if_true]

theorem closeRequest_of_assembling (h : s.state ≠ .closed) (hb : s.busy = false) (hp : s.asm.phase ≠ .none) :
    closeRequest s =
      complete .closedError { s with asm := { s.asm with phase := .none }, state := .closed } := by
  simp only [closeRequest, if_neg h, hb, if_neg hp, Bool.false_eq_true, if_false]

theorem closeRequest_of_executing (h : s.state ≠ .closed) (hb : s.busy = true) (hfree : inTimedHold s = false) :
    closeRequest s = { s with closePending := true } := by
  rw [closeRequest, if_neg h, if_pos hb]
  exact if_neg fun hc => absurd (hfree.symm.trans hc.1) (by decide)

theorem closeRequest_of_hold (h : s.state ≠ .closed) (hb : s.busy = true) (hhold : inTimedHold s = true)
    (hx : s.xfer.pending = false) : closeRequest s = abandon { s with closePending := true } := by
  rw [closeRequest, if_neg h, if_pos hb]
  exact if_pos ⟨hhold, hx⟩

end

/-- Settles O55: the five cases of a close request, told apart by STATE, BUSY, ASM and the two timed holds. -/
theorem closeRequestEffect : Obligations.CloseRequestEffect := by
  intro s v out s'
  have hout : out = .next (writeCtrl v s) := hostAccess_write_offset v s (by decide) (by decide)
  refine ⟨fun hv => ?_, fun hv => ?_⟩
  · rw [hout, writeCtrl, hv]
    rfl
  have hclose : out = .next (closeRequest s') := by
    rw [hout, writeCtrl, hv]
    rfl
  rw [hclose]
  refine ⟨fun hst => ?closed, fun hst hb hp => ?idle, fun hst hb hp => ?assembling, fun hst hb hd hl => ?executing,
    fun hst hb hhold hx => ?holding⟩
  case closed => rw [closeRequest_of_closed (s := s') hst]
  case idle => rw [closeRequest_of_idle (s := s') hst hb hp]
  case assembling =>
    rw [closeRequest_of_assembling (s := s') hst hb hp]
    exact ⟨_, rfl, rfl, rfl, rfl, rfl, by simp, rfl, rfl, rfl, rfl⟩
  case executing =>
    have hfree : inTimedHold s' = false := by simp only [inTimedHold, s', hd, hl, Option.isSome_none, Bool.or_self]
    rw [closeRequest_of_executing (s := s') hst hb hfree]
  case holding =>
    have htimed : inTimedHold s' = true := by
      simp only [inTimedHold, Bool.or_eq_true, Option.isSome_iff_ne_none, Bool.and_eq_true, Bool.not_eq_true']
      exact hhold
    rw [closeRequest_of_hold (s := s') hst hb htimed hx]
    exact ⟨_, rfl, rfl, rfl, rfl, rfl, rfl, rfl, rfl, rfl, rfl, rfl, rfl⟩

/-- The registers block reset leaves are those of `State.reset`, whatever the parameters (R54, V-RST-1). -/
theorem blockReset_registers (s : State) : statusReg (blockReset s) = 0x05000020 ∧ readReg (blockReset s) 0x08 = 0 ∧
    readReg (blockReset s) 0x0C = 0 ∧ readReg (blockReset s) 0x10 = 0 ∧ readReg (blockReset s) 0x14 = 0 ∧
    readReg (blockReset s) 0x1C = 0 ∧ readReg (blockReset s) 0x20 = 0 := by
  have hreset : statusReg State.reset = 0x05000020 ∧ readReg State.reset 0x08 = 0 ∧ readReg State.reset 0x0C = 0 ∧
      readReg State.reset 0x10 = 0 ∧ readReg State.reset 0x14 = 0 ∧ readReg State.reset 0x1C = 0 ∧
      readReg State.reset 0x20 = 0 := by decide
  exact hreset

/-- Settles O58: block reset is one turn, and what it leaves is `State.powerOn` but for the schedule and the host's latch. -/
theorem blockResetRestoresEverything : Obligations.BlockResetRestoresEverything := by
  intro s more ht
  obtain ⟨hstatus, hctrl, hint, hdirty0, hdirty1, hcfg, hchunks⟩ := blockReset_registers { s with turns := more }
  exact ⟨_, step_of_turns_cons ht, hstatus, hctrl, hint, hdirty0, hdirty1, hcfg, hchunks, rfl, rfl, rfl, rfl, rfl, rfl,
    rfl, rfl, rfl, rfl, rfl, rfl⟩

end Sys2Proof.Machine

/-!
PROOFS. What a command reports, and which step of it changes RESULT, LAST_OP, DW and CFG: one bound on every step of every
command, from which O12, O13, O51 and O54 are read off.
-/

namespace Sys2Proof.Machine

/-! ## What a command reports, and when

A step of a command leaves what it reports alone, or completes it: `HasEffect` says so of each operation of a command. -/

/-- What a command reports to the host (R36, R40), and the two registers only commands write (R43, R45). -/
structure Report where
  result : Code
  lastOp : Byte
  intDone : Bool
  intErr : Bool
  dw : Window
  cfg : Cfg

/-- The report a state holds. -/
def report (s : State) : Report :=
  { result := s.result, lastOp := s.lastOp, intDone := s.intDone, intErr := s.intErr, dw := s.dw, cfg := s.cfg }

/-- The report of the command in ASM, whose header's opcode its completion will show, and whether it executes. -/
def openReport (s : State) : Report × Bool × Byte := (report s, s.busy, opField s.asm.hdr)

/-- From `s` the command has completed in `t` (R322). DW is changed only by a command that `writes` it, with OK. -/
structure Completed (writes : Bool) (s t : State) : Prop where
  busy : t.busy = false
  intDone : t.intDone = true
  intErr : t.result ≠ .ok → t.intErr = true
  lastOp : t.lastOp = opField s.asm.hdr
  cfg : t.cfg = s.cfg
  dw : t.dw = s.dw ∨ writes = true ∧ t.result = .ok

/-- The report is left alone, or the command completes. -/
def Effect (writes : Bool) (s t : State) : Prop := openReport t = openReport s ∨ Completed writes s t

/-- Every next state of an operation is its start's by `Effect`. -/
def HasEffect (writes : Bool) (f : State → Out) : Prop := ∀ ⦃s t : State⦄, f s = .next t → Effect writes s t

variable {w : Bool} {s t u : State} {after : State → Out}

/-- A completion, after updates that leave the report alone. -/
theorem completed_of (c : Code) (h : openReport u = openReport s) : Completed w s (complete c u) := by
  simp only [openReport, report, Prod.mk.injEq, Report.mk.injEq] at h
  obtain ⟨⟨-, -, -, -, hdw, hcfg⟩, -, hop⟩ := h
  exact {
    busy := rfl
    intDone := rfl
    intErr := fun hc => by simpa using .inr hc
    lastOp := hop
    cfg := hcfg
    dw := .inl hdw }

/-- An effect, after updates that leave the report alone. -/
theorem Effect.from_eq (h : Effect w u t) (hu : openReport u = openReport s) : Effect w s t := by
  rcases h with he | hc
  · exact .inl (he.trans hu)
  · simp only [openReport, report, Prod.mk.injEq, Report.mk.injEq] at hu
    obtain ⟨⟨-, -, -, -, hdw, hcfg⟩, -, hop⟩ := hu
    exact .inr { hc with lastOp := hop ▸ hc.lastOp, cfg := hcfg ▸ hc.cfg, dw := hdw ▸ hc.dw }

/-- An operation begun after updates that leave the report alone. -/
theorem HasEffect.from_eq (hf : HasEffect w after) (h : after u = .next t) (hu : openReport u = openReport s) :
    Effect w s t := (hf h).from_eq hu

/-- What keeps the report has an effect, none. -/
theorem HasEffect.of_keeps {f : State → Out} (h : Keeps openReport f) : HasEffect w f := fun _ _ ht => .inl (h ht)

theorem HasEffect.goto (st : SeqStep) (n : Nat) : HasEffect w fun s => .next (goto st n s) :=
  .of_keeps (Keeps.next fun _ => rfl)

theorem HasEffect.complete (c : Code) : HasEffect w fun s => .next (complete c s) := by
  intro s t h
  cases h
  exact .inr (completed_of c rfl)

theorem HasEffect.finish (d : DriverState) (c : Code) : HasEffect w (finish d c) :=
  fun _ _ h => (HasEffect.complete c).from_eq h rfl

theorem HasEffect.lineOp (line : State → State) (hline : ∀ s, openReport (line s) = openReport s)
    (ha : HasEffect w after) : HasEffect w fun s => andThen (lineOp line s) after := by
  intro s t h
  obtain ⟨u, hu, ht⟩ := andThen_eq_next.1 h
  obtain ⟨-, rfl⟩ := lineOp_eq_next.1 hu
  exact ha.from_eq ht (hline s)

theorem requestTransfer_keeps_report (bytes : List Byte) : Keeps openReport (requestTransfer bytes) := by
  intro s t h
  obtain ⟨-, rfl⟩ := requestTransfer_eq_next.1 h
  rfl

theorem HasEffect.delayStep (ms : Half) (ha : HasEffect w after) : HasEffect w (delayStep ms after) := by
  intro s t h
  rcases delayStep_eq_next h with ⟨-, h⟩ | ⟨-, -, rfl⟩ | ⟨-, -, h⟩
  · exact ha.from_eq h rfl
  · exact .inl rfl
  · exact ha.from_eq h rfl

theorem HasEffect.enterDelay (ms : Half) (hold : SeqStep) (n : Nat) (ha : HasEffect w after) :
    HasEffect w (enterDelay ms hold n after) := by
  intro s t h
  rcases enterDelay_eq_next h with ⟨-, h⟩ | ⟨-, rfl⟩
  · exact ha h
  · exact .inl rfl

theorem HasEffect.acquireStep (ha : HasEffect w after) : HasEffect w (acquireStep after) := by
  intro s t h
  rcases acquireStep_eq_next h with ⟨-, -, rfl⟩ | ⟨-, h⟩
  · exact .inl rfl
  · exact ha.from_eq h rfl

theorem HasEffect.releaseStep (ha : HasEffect w after) : HasEffect w (releaseStep after) :=
  fun s _ h => ha.from_eq (u := releaseLock s) h rfl

theorem HasEffect.deselectStep (st : SeqStep) : HasEffect w (deselectStep st) := by
  intro s t h
  obtain ⟨-, rfl⟩ := deselectStep_eq_next h
  exact .inl rfl

theorem HasEffect.checked (i : Instr) (hb : HasEffect w after) : HasEffect w (checked i after) := by
  intro s t h
  rcases checked_eq_next h with ⟨-, h⟩ | ⟨-, rfl⟩
  · exact hb h
  · exact .inr (completed_of _ rfl)

theorem HasEffect.groupStep (g : Group) (m : GroupStep) (n : Nat) (cmd : Byte) (params : List Byte)
    (ha : HasEffect w after) : HasEffect w (groupStep g m n cmd params after) := by
  intro s t h
  rcases groupStep_eq_next h with ⟨-, -, rfl⟩ | ⟨-, -, rfl⟩ | ⟨-, -, h⟩ | ⟨-, -, h⟩ | ⟨-, -, -, rfl⟩ | ⟨-, -, h⟩ |
    ⟨-, -, rfl⟩
  · exact .inl rfl
  · exact .inl rfl
  · exact .inl (requestTransfer_keeps_report _ h)
  · exact .inl (requestTransfer_keeps_report _ h)
  · exact .inl rfl
  · exact ha.from_eq h rfl
  · exact .inl rfl

/-! ## The commands' effects -/

theorem initEntryAt_effect (n : Nat) : HasEffect w (initEntryAt n) := by
  intro s t h
  rcases initEntryAt_eq_next h with ⟨-, rfl⟩ | ⟨-, rfl⟩ <;> exact .inl rfl

theorem initGroup_effect (m : GroupStep) (n : Nat) : HasEffect w (initGroup m n) := by
  intro s t h
  unfold initGroup at h
  split at h
  · cases h
  · split at h
    · exact HasEffect.delayStep _ (initEntryAt_effect _) h
    · exact HasEffect.groupStep _ _ _ _ _ (HasEffect.enterDelay _ _ _ (initEntryAt_effect _)) h

theorem initOpen_effect : HasEffect w initOpen := .of_keeps (Keeps.next fun _ => rfl)

/-- `t` is `s` after the first step of an INIT that passed its check, which takes its operands into CFG (R273). -/
def InitBegan (o : BitVec 2) (b v : Bool) (s t : State) : Prop :=
  (∃ n, AtStep s .begin n) ∧ s.state = .uninit ∧ t.state = .resetting ∧
    openReport t = ({ report s with cfg := ⟨o, b, v⟩ }, s.busy, opField s.asm.hdr)

/-- INIT's arms in order (R272); its first is the one that writes CFG. -/
theorem execInit_effect {ms : Half} {o : BitVec 2} {b v : Bool} (h : execInit ms o b v s = .next t) :
    Effect w s t ∨ InitBegan o b v s t := by
  unfold execInit at h
  split at h
  case h_1 op n hsp =>
    rcases checked_eq_next h with ⟨hc, hb⟩ | ⟨-, rfl⟩
    · cases hb
      exact .inr ⟨⟨n, op, hsp⟩, by simpa [validIn] using (check_eq_ok hc).2.1, rfl, rfl⟩
    · exact .inl (.inr (completed_of _ rfl))
  all_goals refine .inl ?_
  case h_2 => exact HasEffect.lineOp resetLowLine (fun _ => rfl) (HasEffect.enterDelay _ _ _ (.goto .resetHigh 0)) h
  case h_3 => exact HasEffect.delayStep _ (.goto _ _) h
  case h_4 => exact HasEffect.lineOp resetHighLine (fun _ => rfl) (HasEffect.enterDelay _ _ _ initOpen_effect) h
  case h_5 => exact HasEffect.delayStep _ initOpen_effect h
  case h_6 => exact HasEffect.acquireStep (.goto _ _) h
  case h_7 => exact HasEffect.lineOp selectLine (fun _ => rfl) (initEntryAt_effect _) h
  case h_8 => exact initGroup_effect _ _ h
  case h_9 => exact HasEffect.deselectStep _ h
  case h_10 => exact HasEffect.releaseStep (HasEffect.enterDelay _ _ _ (.finish _ _)) h
  case h_11 => exact HasEffect.delayStep _ (.finish _ _) h
  case h_12 => exact HasEffect.deselectStep _ h
  case h_13 => exact HasEffect.releaseStep (.finish _ _) h
  case h_14 => cases h

theorem flushBegin_effect : HasEffect w flushBegin := by
  intro s t h
  simp only [flushBegin] at h
  split_ifs at h <;> cases h
  · exact .inl rfl
  · exact .inr (completed_of _ rfl)

theorem flushChunkAt_effect (k : Nat) : HasEffect w (flushChunkAt k) := by
  intro s t h
  rcases flushChunkAt_eq_next h with ⟨-, rfl⟩ | ⟨-, rfl⟩ <;> exact .inl rfl

theorem chunkStep_effect (k : Nat) : HasEffect w (chunkStep k) := by
  intro s t h
  obtain ⟨-, ⟨-, h⟩ | ⟨-, h⟩ | ⟨-, rfl⟩⟩ := chunkStep_eq_next h
  · exact .inl ((requestTransfer_keeps_report _).from_eq h rfl)
  · exact (flushChunkAt_effect _).from_eq h rfl
  · exact .inl rfl

/-- FLUSH's successful end completes OK with DW empty (R283). -/
theorem flushEnd_effect : HasEffect true fun s => finish .ready .ok { s with dw := Window.empty } := by
  intro s t h
  cases h
  exact .inr ⟨rfl, rfl, fun hc => absurd rfl hc, rfl, rfl, .inr ⟨rfl, rfl⟩⟩

/-- FLUSH's arms in order (R279); only its end writes DW. -/
theorem execFlush_effect : HasEffect true execFlush := by
  intro s t h
  unfold execFlush at h
  split at h
  case h_1 => exact HasEffect.checked _ flushBegin_effect h
  case h_2 => exact HasEffect.acquireStep (.goto _ _) h
  case h_3 => exact HasEffect.lineOp selectLine (fun _ => rfl) (.goto _ _) h
  case h_4 => exact HasEffect.groupStep _ _ _ _ _ (.goto _ _) h
  case h_5 => exact HasEffect.groupStep _ _ _ _ _ (.goto _ _) h
  case h_6 => exact HasEffect.groupStep _ _ _ _ _ (.goto _ _) h
  case h_7 =>
    exact (HasEffect.lineOp dataModeLine (fun _ => rfl) (flushChunkAt_effect 0)).from_eq
      (u := { s with chunksTotal := sat16 (chunkCount s) }) h rfl
  case h_8 => exact chunkStep_effect _ h
  case h_9 => exact HasEffect.deselectStep _ h
  case h_10 => exact HasEffect.releaseStep flushEnd_effect h
  case h_11 => exact HasEffect.deselectStep _ h
  case h_12 => exact HasEffect.releaseStep (.finish _ _) h
  case h_13 => cases h

/-- SLEEP's arms in order (R289). -/
theorem execSleep_effect : HasEffect w execSleep := by
  intro s t h
  unfold execSleep at h
  split at h
  case h_1 => exact HasEffect.checked _ (.goto _ _) h
  case h_2 => exact HasEffect.acquireStep (.goto _ _) h
  case h_3 => exact HasEffect.lineOp selectLine (fun _ => rfl) (.goto _ _) h
  case h_4 => exact HasEffect.groupStep _ _ _ _ _ (.goto _ _) h
  case h_5 => exact HasEffect.deselectStep _ h
  case h_6 => exact HasEffect.releaseStep (HasEffect.enterDelay _ _ _ (.finish _ _)) h
  case h_7 => exact HasEffect.delayStep _ (.finish _ _) h
  case h_8 => exact HasEffect.deselectStep _ h
  case h_9 => exact HasEffect.releaseStep (.complete _) h
  case h_10 => cases h

/-- WAKE's arms in order (R294). -/
theorem execWake_effect : HasEffect w execWake := by
  intro s t h
  unfold execWake at h
  split at h
  case h_1 => exact HasEffect.checked _ (.goto _ _) h
  case h_2 => exact HasEffect.acquireStep (.goto _ _) h
  case h_3 => exact HasEffect.lineOp selectLine (fun _ => rfl) (.goto _ _) h
  case h_4 => exact HasEffect.groupStep _ _ _ _ _ (.goto _ _) h
  case h_5 => exact HasEffect.deselectStep _ h
  case h_6 => exact HasEffect.releaseStep (HasEffect.enterDelay _ _ _ (.finish _ _)) h
  case h_7 => exact HasEffect.delayStep _ (.finish _ _) h
  case h_8 => exact HasEffect.deselectStep _ h
  case h_9 => exact HasEffect.releaseStep (.complete _) h
  case h_10 => cases h

/-- CLOSE's arms in order (R299). -/
theorem execClose_effect : HasEffect w execClose := by
  intro s t h
  unfold execClose at h
  split at h
  case h_1 => exact HasEffect.checked _ (.goto _ _) h
  case h_2 => exact HasEffect.deselectStep _ h
  case h_3 => exact HasEffect.releaseStep (.goto _ _) h
  case h_4 => exact HasEffect.lineOp resetHighLine (fun _ => rfl) (.finish _ _) h
  case h_5 => cases h

/-- A framebuffer command's OK completion, whatever window it leaves. -/
theorem completed_ok (hop : u.asm = s.asm) (hcfg : u.cfg = s.cfg) : Completed true s (complete .ok u) :=
  ⟨rfl, rfl, fun hc => absurd rfl hc, by simp [hop], hcfg, .inr ⟨rfl, rfl⟩⟩

theorem execWritePixel_effect (color x y : Half) : HasEffect true (execWritePixel color x y) := by
  intro s t h
  refine HasEffect.checked _ (fun s t h => ?_) (atBegin_eq_next h).2
  obtain ⟨u, hu, ht⟩ := andThen_eq_next.1 h
  obtain ⟨-, rfl⟩ := storePixel_eq_next.1 hu
  cases ht
  exact .inr (completed_ok rfl rfl)

theorem execDrawImage_effect (x y width height : Half) : HasEffect true (execDrawImage x y width height) := by
  intro s t h
  have hbody := (atBegin_eq_next h).2
  split_ifs at hbody <;> cases hbody
  · exact .inr (completed_ok rfl rfl)
  · exact .inr (completed_of _ rfl)
  · exact .inr (completed_of _ rfl)

theorem execClear_effect (color : Half) : HasEffect true (execClear color) := by
  intro s t h
  refine HasEffect.checked _ (fun s t h => ?_) (atBegin_eq_next h).2
  cases h
  exact .inr (completed_ok rfl rfl)

/-- The commands that write DW: the framebuffer commands and FLUSH (R43). -/
def writesWindow (i : Instr) : Bool :=
  match i with
  | .init _ _ _ _ => false
  | .writePixel _ _ _ => true
  | .drawImage _ _ _ _ => true
  | .clear _ => true
  | .flush => true
  | .sleep => false
  | .wake => false
  | .close => false

/-- A step of a command leaves its report alone, completes it, or is INIT's first. -/
theorem exec_effect {i : Instr} (h : exec i s = .next t) :
    Effect (writesWindow i) s t ∨ ∃ ms o b v, i = .init ms o b v ∧ InitBegan o b v s t := by
  cases i with
  | init ms o b v => exact (execInit_effect h).imp_right fun hb => ⟨ms, o, b, v, rfl, hb⟩
  | writePixel color x y => exact .inl (execWritePixel_effect color x y h)
  | drawImage x y width height => exact .inl (execDrawImage_effect x y width height h)
  | clear color => exact .inl (execClear_effect color h)
  | flush => exact .inl (execFlush_effect h)
  | sleep => exact .inl (execSleep_effect h)
  | wake => exact .inl (execWake_effect h)
  | close => exact .inl (execClose_effect h)

/-! ## The effects of the moves -/

theorem opcode_of_writesWindow {i : Instr} (h : writesWindow i = true) :
    i.opcode = 2 ∨ i.opcode = 3 ∨ i.opcode = 4 ∨ i.opcode = 5 := by
  cases i <;> simp_all [writesWindow, Instr.opcode]

/-- What a command going on does to its report: `Effect` of a command that writes DW only by its opcode, or INIT's first
step. -/
def CommandEffect (s t : State) : Prop :=
  (∃ w, Effect w s t ∧ (w = true → opField s.asm.hdr = 2 ∨ opField s.asm.hdr = 3 ∨ opField s.asm.hdr = 4 ∨
    opField s.asm.hdr = 5)) ∨
  ∃ ms o b v rest, decode (asmWords s) = .ok (.init ms o b v, rest) ∧ InitBegan o b v s t

theorem CommandEffect.of_completed (h : Completed false s t) : CommandEffect s t :=
  .inl ⟨false, .inr h, fun hw => by cases hw⟩

theorem CommandEffect.of_same (h : openReport t = openReport s) : CommandEffect s t :=
  .inl ⟨false, .inl h, fun hw => by cases hw⟩

theorem runCommand_effect (h : runCommand s = .next t) : CommandEffect s t := by
  rcases runCommand_eq_next h with ⟨i, rest, hd, hexec⟩ | ⟨e, op, n, -, -, rfl⟩
  · rcases exec_effect hexec with he | ⟨ms, o, b, v, rfl, hb⟩
    · exact .inl ⟨_, he, fun hw => decode_ok_opcode hd ▸ opcode_of_writesWindow hw⟩
    · exact .inr ⟨ms, o, b, v, rest, hd, hb⟩
  · exact .of_completed (completed_of _ rfl)

theorem abandon_completed (s : State) : Completed w s (abandon s) :=
  ⟨rfl, rfl, fun _ => by simp, rfl, rfl, .inl rfl⟩

theorem proceed_effect (h : proceed s = .next t) : CommandEffect s t := by
  rcases proceed_eq_next h with ⟨-, -, rfl⟩ | ⟨-, h⟩
  · exact .of_completed (abandon_completed s)
  · exact runCommand_effect h

/-- An answer handed to the command changes nothing that its effect is told by. -/
theorem CommandEffect.from_eq (h : CommandEffect u t) (hreport : report u = report s) (hbusy : u.busy = s.busy)
    (hasm : u.asm = s.asm) (hsp : u.sp = s.sp) (hstate : u.state = s.state) : CommandEffect s t := by
  have hopen : openReport u = openReport s := by simp only [openReport, hreport, hbusy, hasm]
  rcases h with ⟨w, he, hw⟩ | ⟨ms, o, b, v, rest, hd, ⟨n, op, hbegin⟩, hst, hst', ht⟩
  · exact .inl ⟨w, he.from_eq hopen, hasm ▸ hw⟩
  · exact .inr ⟨ms, o, b, v, rest, by simpa only [asmWords, hasm] using hd, ⟨n, op, hsp ▸ hbegin⟩, hstate ▸ hst, hst', by
      rw [ht, hreport, hbusy, hasm]⟩

/-! ## The assembler and the host's port -/

theorem drawPixel_keeps_report (p : Half) : Keeps report (drawPixel p) := by
  intro s t h
  rcases drawPixel_eq_next h with ⟨-, rfl⟩ | ⟨-, -, rfl⟩ | ⟨-, -, u, hu, rfl⟩
  · rfl
  · rfl
  · obtain ⟨-, rfl⟩ := storePixel_eq_next.1 hu
    rfl

/-- Accepting a word leaves the report alone: what it starts has not reported yet (R126). -/
theorem accept_keeps_report (w : Word) : Keeps report (accept w) := by
  intro s t h
  rcases accept_eq_next h with ⟨-, rfl⟩ | ⟨-, rfl⟩ | ⟨-, h⟩
  · unfold acceptHeader
    dsimp only
    split <;> rfl
  · unfold acceptOperand
    dsimp only
    split_ifs <;> rfl
  · obtain ⟨u, hu, rfl⟩ := acceptData_eq_next h
    have hreport : report u = report s := (drawPixel_keeps_report _).andThen (fun _ => drawPixel_keeps_report _) hu
    split_ifs <;> exact hreport

/-- What one move other than block reset does to the report: a command goes on, or a word is accepted by an idle core. -/
theorem move_effect {m : Move} (h : move m s = .next t) (hm : m ≠ .blockReset) :
    CommandEffect s t ∨ s.busy = false ∧ report t = report s := by
  cases m with
  | rest => cases h; exact .inl (.of_same rfl)
  | lateAnswer => cases h; exact .inl (.of_same rfl)
  | blockReset => exact absurd rfl hm
  | core =>
    rcases coreStep_eq_next h with rfl | ⟨w, -, hb, -, h⟩ | ⟨op, st, n, -, -, -, h⟩
    · exact .inl (.of_same rfl)
    · exact .inr ⟨hb, (accept_keeps_report w).from_eq h rfl⟩
    · exact .inl (proceed_effect h)
  | transport a =>
    simp only [move, transportAnswer] at h
    split_ifs at h
    · exact .inl ((proceed_effect h).from_eq rfl rfl rfl rfl rfl)
    · cases h; exact .inl (.of_same rfl)
  | timer =>
    simp only [move, timerAnswer] at h
    split_ifs at h
    · exact .inl ((proceed_effect h).from_eq rfl rfl rfl rfl rfl)
    · cases h; exact .inl (.of_same rfl)
  | grant =>
    simp only [move, grantLock] at h
    split_ifs at h
    · exact .inl ((proceed_effect h).from_eq rfl rfl rfl rfl rfl)
    · cases h; exact .inl (.of_same rfl)

/-- What a host access does to the report: nothing, a completion with CLOSED_ERROR (R302, R303), or INT's clear (R40). -/
theorem hostAccess_effect {a : Access} (h : hostAccess a s = .next t) :
    report t = report s ∨ t.intDone = true ∧ t.dw = s.dw ∧ t.cfg = s.cfg ∨ ∃ v, t = writeInt v s := by
  cases a with
  | read addr width =>
    simp only [hostAccess] at h
    obtain ⟨-, -, h⟩ := guardAccess_eq_next h
    cases h
    exact .inl rfl
  | write addr width v =>
    simp only [hostAccess] at h
    obtain ⟨-, -, h⟩ := guardAccess_eq_next h
    rcases writeReg_eq_next h with ⟨-, h⟩ | ⟨-, rfl⟩ | ⟨-, rfl⟩ | ⟨-, -, -, rfl⟩
    · rcases writeCmd_eq_next h with ⟨-, h⟩ | ⟨-, rfl⟩
      · exact .inl (accept_keeps_report v h)
      · exact .inl rfl
    · have hclose (u : State) : report (closeRequest u) = report u ∨
          (closeRequest u).intDone = true ∧ (closeRequest u).dw = u.dw ∧ (closeRequest u).cfg = u.cfg := by
        rcases closeRequest_cases u with ⟨-, he⟩ | ⟨-, -, -, he⟩ | ⟨-, -, he⟩ | ⟨-, -, he⟩ | ⟨-, -, he⟩ <;> rw [he]
        · exact .inl rfl
        · exact .inr ⟨rfl, rfl, rfl⟩
        · exact .inl rfl
        · exact .inl rfl
        · exact .inr ⟨rfl, rfl, rfl⟩
      simp only [writeCtrl]
      split_ifs
      · rcases hclose { s with doneIe := v.getLsbD 0 } with he | he
        · exact .inl he
        · exact .inr (.inl he)
      · exact .inl rfl
    · exact .inr (.inr ⟨v, rfl⟩)
    · exact .inl rfl

theorem hostAccess_keeps_dw (a : Access) : Keeps State.dw (hostAccess a) := by
  intro s t h
  rcases hostAccess_effect h with he | ⟨-, he, -⟩ | ⟨v, rfl⟩
  · exact congrArg Report.dw he
  · exact he
  · rfl

theorem hostAccess_keeps_cfg (a : Access) : Keeps State.cfg (hostAccess a) := by
  intro s t h
  rcases hostAccess_effect h with he | ⟨-, -, he⟩ | ⟨v, rfl⟩
  · exact congrArg Report.cfg he
  · exact he
  · rfl

theorem hostStep_keeps_dw (a : Access) : Keeps State.dw (hostStep a) := by
  intro s t h
  rcases hostStep_eq_next h with ⟨-, -, rfl⟩ | ⟨-, h⟩
  · rfl
  · exact hostAccess_keeps_dw a h

/-- RESULT and LAST_OP change at a host access only where it completes a command. -/
theorem hostStep_result {a : Access} (h : hostStep a s = .next t) :
    (t.result = s.result ∧ t.lastOp = s.lastOp) ∨ t.intDone = true := by
  rcases hostStep_eq_next h with ⟨-, -, rfl⟩ | ⟨-, h⟩
  · exact .inl ⟨rfl, rfl⟩
  · rcases hostAccess_effect h with he | ⟨hd, -, -⟩ | ⟨v, rfl⟩
    · exact .inl ⟨congrArg Report.result he, congrArg Report.lastOp he⟩
    · exact .inr hd
    · exact .inl ⟨rfl, rfl⟩

/-! ## The obligations -/

theorem CommandEffect.result_or_done (h : CommandEffect s t) :
    (t.result = s.result ∧ t.lastOp = s.lastOp ∧ t.intDone = s.intDone) ∨ t.intDone = true := by
  rcases h with ⟨w, he | hc, -⟩ | ⟨ms, o, b, v, rest, -, -, -, -, ht⟩
  · have hr : report t = report s := congrArg Prod.fst he
    exact .inl ⟨congrArg Report.result hr, congrArg Report.lastOp hr, congrArg Report.intDone hr⟩
  · exact .inr hc.intDone
  · have hr := congrArg Prod.fst ht
    exact .inl ⟨congrArg Report.result hr, congrArg Report.lastOp hr, congrArg Report.intDone hr⟩

theorem move_result {m : Move} (h : move m s = .next t) (hm : m ≠ .blockReset) :
    (t.result = s.result ∧ t.lastOp = s.lastOp ∧ t.intDone = s.intDone) ∨ t.intDone = true := by
  rcases move_effect h hm with he | ⟨-, hr⟩
  · exact he.result_or_done
  · exact .inl ⟨congrArg Report.result hr, congrArg Report.lastOp hr, congrArg Report.intDone hr⟩

/-- A step of the machine is a HOST's step, if any, and then a move: the core's when the schedule is empty. -/
theorem step_parts (h : step s = .next t) (hreset : ∀ u rest, s.turns = u :: rest → u.move ≠ .blockReset) :
    ∃ u m, m ≠ .blockReset ∧ move m u = .next t ∧
      ∃ rest, u = { s with turns := rest } ∨ ∃ a, hostStep a { s with turns := rest } = .next u := by
  rcases step_eq_next h with ⟨ht, hcore⟩ | ⟨⟨host, m⟩, rest, ht, hturn⟩
  · exact ⟨s, .core, by simp, hcore, [], .inl (by rw [← ht])⟩
  · cases host with
    | none => exact ⟨_, m, hreset _ rest ht, hturn, rest, .inl rfl⟩
    | some a =>
      obtain ⟨u, hu, hmove⟩ := takeTurn_some_eq_next hturn
      exact ⟨u, m, hreset _ rest ht, hmove, rest, .inr ⟨a, hu⟩⟩

/-- Settles O13: the HOST's step and the move each leave RESULT and LAST_OP alone or leave INT.DONE at 1, and no move
clears it. -/
theorem resultChangesOnlyAtCompletion : Obligations.ResultChangesOnlyAtCompletion := by
  intro s t h hreset hchanged
  obtain ⟨u, m, hm, hmove, rest, hu⟩ := step_parts h hreset
  rcases move_result hmove hm with ⟨hres, hop, hdone⟩ | hdone
  swap
  · exact hdone
  have hhost : (u.result = s.result ∧ u.lastOp = s.lastOp) ∨ u.intDone = true := by
    rcases hu with rfl | ⟨a, ha⟩
    · exact .inl ⟨rfl, rfl⟩
    · exact hostStep_result (s := { s with turns := rest }) ha
  rcases hhost with ⟨hres', hop'⟩ | hdone'
  · rcases hchanged with hne | hne
    · exact absurd (hres.trans hres') hne
    · exact absurd (hop.trans hop') hne
  · exact hdone.trans hdone'

/-- Settles O12: a command that executes after the HOST's step and not after the move has completed in the move. -/
theorem completionBeatsInterruptClear : Obligations.CompletionBeatsInterruptClear := by
  intro s t v m hm hturn hb ht
  obtain ⟨u, hu, hmove⟩ := takeTurn_some_eq_next hturn
  have hub : u.busy = true := by
    rcases hostStep_eq_next hu with ⟨-, -, rfl⟩ | ⟨-, h⟩
    · exact hb
    · rw [hostAccess_write_int] at h
      cases h
      exact hb
  rcases move_effect hmove hm with (⟨w, he | hc, -⟩ | ⟨ms, o, b, v, rest, -, -, -, -, he⟩) | ⟨hb', -⟩
  · have hbusy : t.busy = u.busy := congrArg (·.2.1) he
    simp [ht, hub] at hbusy
  · exact ⟨hc.intDone, hc.intErr⟩
  · have hbusy : t.busy = u.busy := congrArg (·.2.1) he
    simp [ht, hub] at hbusy
  · simp [hub] at hb'

/-- Settles O51: no host access writes DW, and a move that changes it is a completion with OK of a command that writes it. -/
theorem onlyItsCommandsChangeTheDirtyWindow : Obligations.OnlyItsCommandsChangeTheDirtyWindow := by
  refine ⟨fun a s t h => hostAccess_keeps_dw a h, fun s t _ h hreset hne => ?_⟩
  obtain ⟨u, m, hm, hmove, rest, hu⟩ := step_parts h hreset
  have hdw : u.dw = s.dw := by
    rcases hu with rfl | ⟨a, ha⟩
    · rfl
    · exact hostStep_keeps_dw (s := { s with turns := rest }) a ha
  rw [← hdw] at hne
  rcases move_effect hmove hm with (⟨w, he | hc, hw⟩ | ⟨ms, o, b, v, rest, -, -, -, -, he⟩) | ⟨-, he⟩
  · exact absurd (congrArg (·.1.dw) he) hne
  · obtain ⟨hwrites, hok⟩ := hc.dw.resolve_left hne
    exact ⟨hok, hc.lastOp ▸ hw hwrites, hc.intDone⟩
  · exact absurd (congrArg (·.1.dw) he) hne
  · exact absurd (congrArg Report.dw he) hne

/-- Settles O54: no host access writes CFG, and a move that changes it is INIT's first step. -/
theorem onlyInitWritesConfiguration : Obligations.OnlyInitWritesConfiguration := by
  refine ⟨fun a s t h => hostAccess_keeps_cfg a h, fun m s t _ hmove hm hne => ?_⟩
  rcases move_effect hmove hm with (⟨w, he | hc, -⟩ | ⟨ms, o, b, v, rest, hd, hbegin, hst, hst', he⟩) | ⟨-, he⟩
  · exact absurd (congrArg (·.1.cfg) he) hne
  · exact absurd hc.cfg hne
  · exact ⟨ms, o, b, v, rest, hd, congrArg (·.1.cfg) he, hbegin, hst, hst'⟩
  · exact absurd (congrArg Report.cfg he) hne

end Sys2Proof.Machine

/-!
PROOFS. The pixel stream as the chunks carry it, and what a panel receives from the wire forms of FLUSH and INIT (O38).
-/

namespace Sys2Proof.Machine

/-! ## The pixel stream and its chunks -/

/-- Rows of equal length, one after another, are one row of their sum's length. -/
theorem range_flatMap_range {α : Type} (f : Nat → Nat → α) (h w : Nat) :
    ((List.range h).flatMap fun r => (List.range w).map fun c => f r c) =
      (List.range (h * w)).map fun q => f (q / w) (q % w) := by
  induction h with
  | zero => simp
  | succ h ih =>
    rw [List.range_succ, List.flatMap_append, ih, Nat.succ_mul, List.range_add, List.map_append, List.map_map]
    congr 1
    rw [List.flatMap_cons, List.flatMap_nil, List.append_nil]
    refine List.map_congr_left fun c hc => ?_
    have hlt : c < w := List.mem_range.1 hc
    simp only [Function.comp_apply]
    rw [Nat.mul_comm h w, Nat.mul_add_div (by omega), Nat.div_eq_of_lt hlt, Nat.mul_add_mod, Nat.mod_eq_of_lt hlt,
      Nat.add_zero]

/-- A pixel's byte by its place in the stream: the high byte first (R17). -/
def pixelByte (p : Half) (j : Nat) : Byte := if j % 2 = 0 then p.extractLsb' 8 8 else p.extractLsb' 0 8

theorem be16_eq_map (p : Half) : be16 p = (List.range 2).map (pixelByte p) := rfl

/-- The row-major stream, byte by byte (R208, R210). -/
theorem pixelStream_eq_map (s : State) : pixelStream s = (List.range (streamLength s.dw)).map (streamByte s) := by
  have hw : 0 < s.dw.width := Nat.succ_pos _
  simp only [pixelStream, be16_eq_map]
  simp only [range_flatMap_range]
  have hlen : s.dw.height * (s.dw.width * 2) = streamLength s.dw := by
    simp only [streamLength]
    ring
  rw [hlen]
  refine List.map_congr_left fun n _ => ?_
  have hcol : n % (s.dw.width * 2) / 2 = n / 2 % s.dw.width := by
    rw [Nat.mul_comm, Nat.mod_mul_right_div_self]
  have hrow : n / (s.dw.width * 2) = n / 2 / s.dw.width := by
    rw [Nat.mul_comm, Nat.div_div_eq_div_mul]
  simp only [streamByte, pixelByte, hcol, hrow, Nat.mod_mod, Nat.mod_mul_left_mod]

/-- Slices of a stream of `n` bytes, `m` bytes each but the last, joined up to the `t`-th. -/
theorem flatMap_slices {α : Type} (f : Nat → α) (m n t : Nat) :
    ((List.range t).flatMap fun k => (List.range (min ((k + 1) * m) n - k * m)).map fun j => f (k * m + j)) =
      (List.range (min (t * m) n)).map f := by
  induction t with
  | zero => simp
  | succ t ih =>
    rw [List.range_succ, List.flatMap_append, ih, List.flatMap_cons, List.flatMap_nil, List.append_nil]
    rcases Nat.le_total (t * m) n with hle | hge
    · have hsplit : min ((t + 1) * m) n = t * m + (min ((t + 1) * m) n - t * m) := by
        rw [Nat.succ_mul]
        omega
      rw [Nat.min_eq_left hle]
      conv_rhs => rw [hsplit, List.range_add, List.map_append, List.map_map]
      rfl
    · have hend : min ((t + 1) * m) n = n := by
        rw [Nat.succ_mul]
        omega
      rw [hend, Nat.min_eq_right hge, Nat.sub_eq_zero_of_le hge]
      simp

/-- The chunks of a flush, one after another, are its pixel stream (R212, R214). -/
theorem flatMap_chunkBytes {s : State} (hp : s.params.wellFormed = true) :
    (List.range (chunkCount s)).flatMap (chunkBytes s) = pixelStream s := by
  have hm := maxChunk_bounds hp
  have hcover : streamLength s.dw ≤ chunkCount s * s.params.maxChunkBytes := by
    have hlt := Nat.lt_div_mul_add (a := streamLength s.dw + s.params.maxChunkBytes - 1)
      (b := s.params.maxChunkBytes) (by omega)
    simp only [chunkCount, ceilDiv]
    omega
  have hslices := flatMap_slices (streamByte s) s.params.maxChunkBytes (streamLength s.dw) (chunkCount s)
  rw [Nat.min_eq_right hcover] at hslices
  exact hslices.trans (pixelStream_eq_map s).symm

/-! ## What a panel receives, event list by event list -/

theorem dataBytes_waitEvents (ms : Half) (rest : List Event) : dataBytes (waitEvents ms ++ rest) = dataBytes rest := by
  unfold waitEvents
  split_ifs <;> rfl

theorem received_waitEvents (b : Bool) (ms : Half) (rest : List Event) :
    received b (waitEvents ms ++ rest) = received b rest := by
  unfold waitEvents
  split_ifs <;> rfl

/-- A group delivers its command byte with its parameters and the Data bytes that follow (R51, R180). -/
theorem received_groupEvents (cmd : Byte) (params : List Byte) (rest : List Event) :
    received true (groupEvents cmd params ++ rest) = ([cmd], params ++ dataBytes rest) :: received true rest := by
  unfold groupEvents
  split_ifs with hp
  · subst hp
    rfl
  · rfl

theorem dataBytes_groupEvents (cmd : Byte) (params : List Byte) (rest : List Event) :
    dataBytes (groupEvents cmd params ++ rest) = [] := rfl

theorem received_data (b : Bool) (l : List (List Byte)) (rest : List Event) :
    received b (l.map txD ++ rest) = received b rest := by
  induction l with
  | nil => rfl
  | cons bytes l ih => exact ih

theorem dataBytes_data (l : List (List Byte)) (rest : List Event) :
    dataBytes (l.map txD ++ rest) = l.flatten ++ dataBytes rest := by
  induction l with
  | nil => rfl
  | cons bytes l ih => simp [txD, dataBytes, ih]

/-- A frame delivers what its body does, up to its end (R51, R179). -/
theorem received_frameEvents (shared : Bool) (body rest : List Event) :
    received false (frameEvents shared body ++ rest) =
      received true (body ++ (.cs true :: ((if shared then [.unlock] else []) ++ rest))) := by
  cases shared <;> simp [frameEvents, received]

theorem received_frameEnd (shared : Bool) (ms : Half) :
    received true (.cs true :: ((if shared then [.unlock] else []) ++ waitEvents ms)) = [] := by
  have hwait := received_waitEvents false ms []
  rw [List.append_nil] at hwait
  cases shared <;> exact hwait

/-- An open init table delivers each entry's command with its parameters (R204). -/
theorem received_initTableEvents (s : State) (table : List InitEntry) {tail : List Event}
    (hdata : dataBytes tail = []) (hnone : received true tail = []) :
    received true (initTableEvents s table ++ tail) =
        table.map (fun e => ([resolveCmd s e.cmd], e.params.map (resolveParam s))) ∧
      dataBytes (initTableEvents s table ++ tail) = [] := by
  induction table with
  | nil => exact ⟨hnone, hdata⟩
  | cons e table ih =>
    obtain ⟨hreceived, hbytes⟩ := ih
    have hcons : initTableEvents s (e :: table) ++ tail = groupEvents (resolveCmd s e.cmd) (e.params.map (resolveParam s)) ++
        (waitEvents e.delayMs ++ (initTableEvents s table ++ tail)) := by
      simp [initTableEvents]
    rw [hcons, received_groupEvents, dataBytes_waitEvents, received_waitEvents, hreceived, hbytes, List.append_nil]
    exact ⟨rfl, dataBytes_groupEvents _ _ _⟩

theorem received_initEvents (ms : Half) (s : State) : received false (initEvents ms s) =
    s.params.initTable.map fun e => ([resolveCmd s e.cmd], e.params.map (resolveParam s)) := by
  have hevents : initEvents ms s = .rst false :: (waitEvents ms ++ (.rst true :: (waitEvents s.params.tResetRecovery ++
      (frameEvents s.params.sharedBus (initTableEvents s s.params.initTable) ++ waitEvents s.params.tPostInit)))) := by
    simp [initEvents]
  rw [hevents]
  show received false (waitEvents ms ++ _) = _
  rw [received_waitEvents]
  show received false (waitEvents _ ++ _) = _
  rw [received_waitEvents, received_frameEvents]
  exact (received_initTableEvents s _ rfl (received_frameEnd _ _)).1

/-- A flush's wire form delivers the window's columns, its rows, and its pixel stream (R206, R208, R214). -/
theorem received_flushEvents {s : State} (hp : s.params.wellFormed = true) : received false (flushEvents s) =
    [([s.params.bytes.caset], casetParams s), ([s.params.bytes.raset], rasetParams s),
     ([s.params.bytes.ramwr], pixelStream s)] := by
  have hdata : ((List.range (chunkCount s)).map fun k => txD (chunkBytes s k)) =
      ((List.range (chunkCount s)).map (chunkBytes s)).map txD := by simp
  have hevents : flushEvents s = frameEvents s.params.sharedBus (groupEvents s.params.bytes.caset (casetParams s) ++
      (groupEvents s.params.bytes.raset (rasetParams s) ++ (groupEvents s.params.bytes.ramwr [] ++
        ((List.range (chunkCount s)).map (chunkBytes s)).map txD))) ++ waitEvents 0 := by
    simp [flushEvents, flushTransfers, windowEvents, hdata, waitEvents]
  rw [hevents, received_frameEvents]
  simp only [List.append_assoc, received_groupEvents, dataBytes_groupEvents, dataBytes_data, received_data,
    received_frameEnd, List.append_nil, List.nil_append]
  rw [← List.flatMap_def, flatMap_chunkBytes hp]
  simp [dataBytes]

/-- Settles O38: a flush's frame group by group, and an init's table entry by entry. -/
theorem panelReceivesEachCommandsData : Obligations.PanelReceivesEachCommandsData :=
  fun s => ⟨fun _ hp => received_flushEvents hp, fun ms => received_initEvents ms s⟩

end Sys2Proof.Machine

/-!
PROOFS. The run of a FLUSH whose transfers are all answered OK: one lemma per kind of step under the invariant, then the
whole run, and the colour that a panel receives (O45).
-/

namespace Sys2Proof.Machine

/-! ## Running a command under a cooperating environment -/

/-- With every transfer answered OK, the machine comes from `s` to `t` in at most `k` steps. -/
def RunsTo (k : Nat) (s t : State) : Prop := ∃ j, j ≤ k ∧ ∀ fuel, drive (j + fuel) [] s = drive fuel [] t

theorem RunsTo.trans {j k : Nat} {s t u : State} (hst : RunsTo j s t) (htu : RunsTo k t u) : RunsTo (j + k) s u := by
  obtain ⟨j', hj, hs⟩ := hst
  obtain ⟨k', hk, ht⟩ := htu
  exact ⟨j' + k', by omega, fun fuel => by rw [Nat.add_assoc, hs, ht]⟩

theorem RunsTo.mono {j k : Nat} {s t : State} (h : RunsTo j s t) (hjk : j ≤ k) : RunsTo k s t :=
  h.imp fun _ hj => ⟨hj.1.trans hjk, hj.2⟩

/-- The run of a command that has come to IDLE is over. -/
theorem RunsTo.drive {k bound : Nat} {s t : State} (h : RunsTo k s t) (hidle : t.sp = .idle) (hk : k ≤ bound) :
    drive bound [] s = .next t := by
  obtain ⟨j, hj, hrun⟩ := h
  have hstop (fuel : Nat) : Machine.drive fuel [] t = .next t := by
    cases fuel with
    | zero => rfl
    | succ fuel => simp only [Machine.drive, hidle]
  rw [← Nat.add_sub_cancel' (hj.trans hk), hrun, hstop]

section
variable {s t : State} {i : Instr} {rest : List Word} {op : Byte} {st : SeqStep} {n : Nat}

/-- One step of a run, from a state that meets the invariant to one that does. -/
theorem runsTo_of_step (hinv : Inv s) (hsp : s.sp = .run op st n)
    (h : step { s with turns := [coopTurn .ok s] } = .next t) : RunsTo 1 s t ∧ Inv t := by
  refine ⟨⟨1, le_rfl, fun fuel => ?_⟩, stepKeepsInvariant { s with turns := [coopTurn .ok s] } t { hinv with } h⟩
  rw [Nat.add_comm]
  simp only [drive, hsp, List.headD_nil, List.tail_nil, ite_self]
  rw [← hsp]
  simp only [h]

/-- Out of a hold the core moves: one step of the decoded command. -/
theorem runsTo_core (hinv : Inv s) (hsp : s.sp = .run op st n) (hdec : decode (asmWords s) = .ok (i, rest))
    (hc : s.closePending = false) (hx : s.xfer.pending = false) (hd : s.delay = none)
    (hl : (s.lockReq && !s.locked) = false) (hexec : exec i { s with turns := [] } = .next t) : RunsTo 1 s t ∧ Inv t := by
  have hturn : coopTurn .ok s = ⟨none, .core⟩ := by simp [coopTurn, hx, hd, hl]
  refine runsTo_of_step hinv hsp ?_
  rw [hturn, ← hexec]
  obtain ⟨hfree, -, -⟩ := stepRunsTheDecodedInstruction { s with turns := [⟨none, .core⟩] } op st n hsp hc
  exact ((hfree hx hd hl).2 i rest hdec).2 [] rfl

/-- A transfer is answered OK at once: the command's step with that answer. -/
theorem runsTo_transport (hinv : Inv s) (hsp : s.sp = .run op st n) (hdec : decode (asmWords s) = .ok (i, rest))
    (hc : s.closePending = false) (hx : s.xfer.pending = true)
    (hexec : exec i (recordAnswer .ok { s with turns := [] }) = .next t) : RunsTo 1 s t ∧ Inv t := by
  have hturn : coopTurn .ok s = ⟨none, .transport .ok⟩ := by simp [coopTurn, hx]
  refine runsTo_of_step hinv hsp ?_
  rw [hturn, ← hexec]
  obtain ⟨-, -, hanswer⟩ := stepRunsTheDecodedInstruction { s with turns := [⟨none, .transport .ok⟩] } op st n hsp hc
  exact (hanswer i rest [] hdec).1 .ok hx rfl

/-- A waiting lock request is granted at once: the command's step with the grant. -/
theorem runsTo_grant (hinv : Inv s) (hsp : s.sp = .run op st n) (hdec : decode (asmWords s) = .ok (i, rest))
    (hc : s.closePending = false) (hx : s.xfer.pending = false) (hd : s.delay = none)
    (hl : (s.lockReq && !s.locked) = true) (hexec : exec i { s with turns := [], reply := some .ok } = .next t) :
    RunsTo 1 s t ∧ Inv t := by
  have hturn : coopTurn .ok s = ⟨none, .grant⟩ := by simp [coopTurn, hx, hd, hl]
  refine runsTo_of_step hinv hsp ?_
  rw [hturn, ← hexec]
  obtain ⟨-, -, hanswer⟩ := stepRunsTheDecodedInstruction { s with turns := [⟨none, .grant⟩] } op st n hsp hc
  exact (hanswer i rest [] hdec).2.2 hl rfl

end

/-! ## The run of a FLUSH

FLUSH's arms (R279), one equation each. -/

/-- The end of a FLUSH that sent its window: the lock released, DW empty, READY, completed OK (R283). -/
def flushEnd (s : State) : State := complete .ok { releaseLock s with dw := Window.empty, state := .ready }

section
variable {s : State} {op : Byte} {n : Nat}

theorem exec_flush_begin (h : s.sp = .run op .begin n) : exec .flush s = checked .flush flushBegin s := by
  simp only [exec, execFlush, h]

theorem exec_flush_acquire (h : s.sp = .run op .acquire n) :
    exec .flush s = acquireStep (fun t => .next (goto .select 0 t)) s := by simp only [exec, execFlush, h]

theorem exec_flush_select (h : s.sp = .run op .select n) : exec .flush s =
    andThen (lineOp selectLine s) fun t => .next (goto (.group .caset .cmdMode) 0 t) := by simp only [exec, execFlush, h]

theorem exec_flush_caset {m : GroupStep} (h : s.sp = .run op (.group .caset m) n) : exec .flush s =
    groupStep .caset m 0 s.params.bytes.caset (casetParams s) (fun t => .next (goto (.group .raset .cmdMode) 0 t)) s := by
  simp only [exec, execFlush, h]

theorem exec_flush_raset {m : GroupStep} (h : s.sp = .run op (.group .raset m) n) : exec .flush s =
    groupStep .raset m 0 s.params.bytes.raset (rasetParams s) (fun t => .next (goto (.group .ramwr .cmdMode) 0 t)) s := by
  simp only [exec, execFlush, h]

theorem exec_flush_ramwr {m : GroupStep} (h : s.sp = .run op (.group .ramwr m) n) : exec .flush s =
    groupStep .ramwr m 0 s.params.bytes.ramwr [] (fun t => .next (goto .pixelMode 0 t)) s := by
  simp only [exec, execFlush, h]

theorem exec_flush_pixelMode (h : s.sp = .run op .pixelMode n) : exec .flush s = pixelModeStep s := by
  simp only [exec, execFlush, h]

theorem exec_flush_chunk (h : s.sp = .run op .chunk n) : exec .flush s = chunkStep n s := by
  simp only [exec, execFlush, h]

theorem exec_flush_deselect (h : s.sp = .run op .deselect n) : exec .flush s = deselectStep .release s := by
  simp only [exec, execFlush, h]

theorem exec_flush_release (h : s.sp = .run op .release n) :
    exec .flush s = .next (flushEnd s) := by
  simp only [exec, execFlush, h, releaseStep, finish, flushEnd]

end

/-- What a FLUSH sends is told by these fields, and its steps but the last leave them alone (R97, R376). -/
def flushView (s : State) : Params × Window × Memory 16 × Nat × Assembler := (s.params, s.dw, s.pb, s.draw, s.asm)

/-- The FLUSH that began in `u` has sent the events `es`, and the core is about to take step `st`. -/
structure FlushAt (u : State) (st : SeqStep) (n : Nat) (es : List Event) (s : State) : Prop where
  inv : Inv s
  view : flushView s = flushView u
  decoded : ∃ rest, decode (asmWords s) = .ok (.flush, rest)
  sp : ∃ op, s.sp = .run op st n
  turns : s.turns = []
  noTransfer : s.xfer.pending = false
  noClose : s.closePending = false
  trace : s.trace = u.trace ++ es

section
variable {u s t : State} {st next : SeqStep} {n k : Nat} {es : List Event}

theorem turns_nil_eq (h : s.turns = []) : { s with turns := [] } = s := by
  cases s
  cases h
  rfl

theorem FlushAt.levels (h : FlushAt u st n es s) : (s.csN, s.rstN, s.locked) = stepLevels st := by
  obtain ⟨op, hsp⟩ := h.sp
  have hlevels := h.inv.levels
  rwa [hsp] at hlevels

theorem FlushAt.noDelay (h : FlushAt u st n es s) (hst : stepDelays st = false) : s.delay = none := by
  obtain ⟨op, hsp⟩ := h.sp
  by_contra hd
  obtain ⟨ms, hms⟩ := Option.ne_none_iff_exists'.1 hd
  have hdelay := (h.inv.delaying ms hms).2
  simp [hsp, spStep, hst] at hdelay

/-- One core step of the FLUSH, other than at Acquire. -/
theorem FlushAt.core (h : FlushAt u st n es s) (hdelay : stepDelays st = false) (hacq : st ≠ .acquire)
    (hexec : exec .flush s = .next t) : RunsTo 1 s t ∧ Inv t := by
  obtain ⟨op, hsp⟩ := h.sp
  obtain ⟨rest, hdec⟩ := h.decoded
  have hlock : (s.lockReq && !s.locked) = false := by
    by_contra hl
    obtain ⟨hreq, hlk⟩ : s.lockReq = true ∧ s.locked = false := by simpa using hl
    have hwait := h.inv.lockWait hreq hlk
    simp [hsp, spStep, hacq] at hwait
  exact runsTo_core h.inv hsp hdec h.noClose h.noTransfer (h.noDelay hdelay) hlock
    (by rw [turns_nil_eq h.turns]; exact hexec)

/-- The FLUSH goes to its next step, by an update `t` of the state that records the events `ev`. -/
theorem FlushAt.advance {n' : Nat} {ev : List Event} (h : FlushAt u st n es s) (hdelay : stepDelays st = false)
    (hacq : st ≠ .acquire) (hexec : exec .flush s = .next (goto next n' t)) (hview : flushView t = flushView s)
    (hkeep : (t.sp, t.turns, t.xfer, t.closePending) = (s.sp, s.turns, s.xfer, s.closePending))
    (htrace : t.trace = s.trace ++ ev) :
    RunsTo 1 s (goto next n' t) ∧ FlushAt u next n' (es ++ ev) (goto next n' t) := by
  obtain ⟨hrun, hinv⟩ := h.core hdelay hacq hexec
  obtain ⟨op, hsp⟩ := h.sp
  simp only [Prod.mk.injEq] at hkeep
  obtain ⟨hsp', hturns, hxfer, hclose⟩ := hkeep
  have hasm : t.asm = s.asm := congrArg (·.2.2.2.2) hview
  exact ⟨hrun, {
    inv := hinv
    view := hview.trans h.view
    decoded := by simpa only [asmWords, goto_asm, hasm] using h.decoded
    sp := ⟨op, by simp [hsp', hsp]⟩
    turns := hturns.trans h.turns
    noTransfer := (congrArg Xfer.pending hxfer).trans h.noTransfer
    noClose := hclose.trans h.noClose
    trace := by rw [goto_trace, htrace, h.trace, List.append_assoc] }⟩

/-- A transfer of the FLUSH, requested and answered OK, and the next step (R170). The request may be made from an update
`r` of the state, as a chunk's is. -/
theorem FlushAt.transfer {n' : Nat} {b : Bool} {bytes : List Byte} {r : State} (h : FlushAt u st n es s)
    (hmode : stepMode st = some b) (hfit : 0 < bytes.length ∧ bytes.length ≤ s.params.tbufBytes)
    (hreq : exec .flush s = requestTransfer bytes r)
    (hr : (flushView r, r.sp, r.turns, r.xfer, r.closePending, r.trace, r.dc) =
      (flushView s, s.sp, s.turns, s.xfer, s.closePending, s.trace, s.dc))
    (hanswer : ∀ t, t.sp = s.sp → flushView t = flushView s → t.reply = some .ok →
      exec .flush t = .next (goto next n' { t with reply := none })) :
    ∃ t, RunsTo 2 s t ∧ FlushAt u next n' (es ++ [.tx (modeOf b) bytes .ok]) t := by
  obtain ⟨op, hsp⟩ := h.sp
  obtain ⟨-, hdelay, hacq, -⟩ := stepLevels_of_mode hmode
  simp only [Prod.mk.injEq] at hr
  obtain ⟨hview, hrsp, hturns, hxfer, hclose, htrace, hdc⟩ := hr
  have hasm : r.asm = s.asm := congrArg (·.2.2.2.2) hview
  have hparams : r.params = s.params := congrArg (·.1) hview
  have hdcb : s.dc = b := h.inv.mode b (by rw [hsp]; exact hmode)
  obtain ⟨t₁, ht₁⟩ : ∃ t, requestTransfer bytes r = .next t :=
    ⟨_, requestTransfer_eq_next.2 ⟨⟨by rw [hxfer, h.noTransfer], hfit.1, by rw [hparams]; exact hfit.2⟩, rfl⟩⟩
  have hsent := sentBytes_requestTransfer ht₁
  obtain ⟨-, rfl⟩ := requestTransfer_eq_next.1 ht₁
  obtain ⟨hrun₁, hinv₁⟩ := h.core hdelay hacq (hreq.trans ht₁)
  obtain ⟨rest, hdec⟩ := h.decoded
  have hdec₁ : decode (r.asm.hdr :: r.asm.opnd) = .ok (.flush, rest) := by rw [hasm]; exact hdec
  have hsp₁ : r.sp = .run op st n := hrsp.trans hsp
  have hexec₂ := hanswer (recordAnswer .ok { r with
    turns := [], tb := stageFrom 0 bytes r.tb, xfer := ⟨true, bytes.length⟩ }) hrsp hview rfl
  obtain ⟨hrun₂, hinv₂⟩ := runsTo_transport hinv₁ hsp₁ hdec₁ (hclose.trans h.noClose) rfl hexec₂
  exact ⟨_, hrun₁.trans hrun₂, {
    inv := hinv₂
    view := hview.trans h.view
    decoded := ⟨rest, hdec₁⟩
    sp := ⟨op, by simp [hsp₁]⟩
    turns := rfl
    noTransfer := rfl
    noClose := hclose.trans h.noClose
    trace := by
      show r.trace ++ [.tx (modeOf r.dc) _ .ok] = _
      rw [htrace, h.trace, hdc, hdcb, List.append_assoc]
      exact congrArg (fun bs => u.trace ++ (es ++ [.tx (modeOf b) bs .ok])) hsent }⟩

/-- A whole group of the FLUSH, each transfer answered OK (R180). -/
theorem FlushAt.group {g : Group} {cmd : Byte} {params : List Byte} (h : FlushAt u (.group g .cmdMode) n es s)
    (hexec : ∀ t m, (∃ op k, t.sp = .run op (.group g m) k) → flushView t = flushView u →
      exec .flush t = groupStep g m 0 cmd params (fun t => .next (goto next 0 t)) t)
    (hfit : params.length ≤ u.params.tbufBytes) :
    ∃ t, RunsTo 6 s t ∧ FlushAt u next 0 (es ++ groupEvents cmd params) t := by
  have hline (t : State) (m : GroupStep) {k : Nat} {es' : List Event} (ht : FlushAt u (.group g m) k es' t) :
      exec .flush t = groupStep g m 0 cmd params (fun t => .next (goto next 0 t)) t :=
    hexec t m (by obtain ⟨op, hsp⟩ := ht.sp; exact ⟨op, k, hsp⟩) ht.view
  have hbuf {k : Nat} {st : SeqStep} {es' : List Event} {t : State} (ht : FlushAt u st k es' t) :
      t.params = u.params ∧ 4 ≤ t.params.tbufBytes :=
    ⟨congrArg (·.1) ht.view, (maxChunk_bounds ht.inv.params).2.2.2⟩
  have hcmd : exec .flush s = .next (goto (.group g .cmdByte) 0 (cmdModeLine s)) := by
    rw [hline s .cmdMode h]
    simp only [groupStep, lineOp_ready _ h.noTransfer]
  obtain ⟨hrun₁, h₁⟩ := h.advance (ev := []) (by cases g <;> rfl) (by simp) hcmd rfl rfl (by simp)
  have hbyte {k : Nat} {es' : List Event} {t : State} {after : SeqStep} (ht : FlushAt u (.group g .cmdByte) k es' t)
      (hafter : ∀ t, (if params = [] then .next (goto next 0 t) else .next (goto (.group g .dataMode) 0 t)) =
        (.next (goto after 0 t) : Out)) :
      ∃ t', RunsTo 2 t t' ∧ FlushAt u after 0 (es' ++ [.tx .command [cmd] .ok]) t' := by
    refine ht.transfer (b := false) rfl ⟨by simp, by have := (hbuf ht).2; simp; omega⟩ (r := t) ?_ rfl fun t' hsp hview hr => ?_
    · rw [hline t .cmdByte ht]
      simp only [groupStep, transferStep_none ht.inv.noReply]
    · obtain ⟨op, hsp'⟩ := ht.sp
      rw [hexec t' .cmdByte ⟨op, k, hsp.trans hsp'⟩ (hview.trans ht.view)]
      simp only [groupStep, transferStep_ok hr]
      exact hafter _
  by_cases hp : params = []
  · obtain ⟨t, hrun₂, h₂⟩ := hbyte (after := next) h₁ fun t => if_pos hp
    exact ⟨t, (hrun₁.trans hrun₂).mono (by omega), by simpa [groupEvents, hp, txC] using h₂⟩
  · obtain ⟨t₂, hrun₂, h₂⟩ := hbyte (after := .group g .dataMode) h₁ fun t => if_neg hp
    have hdata : exec .flush t₂ = .next (goto (.group g .params) 0 (dataModeLine t₂)) := by
      rw [hline t₂ .dataMode h₂]
      simp only [groupStep, lineOp_ready _ h₂.noTransfer]
    obtain ⟨hrun₃, h₃⟩ := h₂.advance (ev := []) (by cases g <;> rfl) (by simp) hdata rfl rfl (by simp)
    obtain ⟨t₄, hrun₄, h₄⟩ := h₃.transfer (b := true) (bytes := params) (next := next) (n' := 0) rfl
      ⟨List.length_pos_iff.2 hp, (hbuf h₃).1 ▸ hfit⟩
      (r := goto (.group g .params) 0 (dataModeLine t₂))
      (by rw [hline _ .params h₃]; simp only [groupStep, transferStep_none h₃.inv.noReply]) rfl fun t' hsp hview hr => by
        obtain ⟨op, hsp'⟩ := h₃.sp
        rw [hexec t' .params ⟨op, 0, hsp.trans hsp'⟩ (hview.trans h₃.view)]
        simp only [groupStep, transferStep_ok hr]
    exact ⟨t₄, ((hrun₁.trans hrun₂).trans (hrun₃.trans hrun₄)).mono (by omega), by
      simpa [groupEvents, hp, txC, txD, modeOf] using h₄⟩

theorem chunkCount_of_view (h : flushView t = flushView s) : chunkCount t = chunkCount s :=
  chunkCount_congr (congrArg (·.2.1) h) (congrArg (·.1) h)

theorem chunkBytes_of_view (h : flushView t = flushView s) (k : Nat) : chunkBytes t k = chunkBytes s k := by
  simp only [flushView, Prod.mk.injEq] at h
  obtain ⟨hparams, hdw, hpb, hdraw, -⟩ := h
  simp only [chunkBytes, streamByte, readPixel, hparams, hdw, hpb, hdraw]

/-- Chunk `k` of the FLUSH, answered OK (R213, R214). -/
theorem FlushAt.chunk (h : FlushAt u .chunk k es s) (hv : u.dw.valid = true) (hk : k < chunkCount u) {n' : Nat}
    (hnext : (if k + 1 < chunkCount u then (.chunk, k + 1) else (.deselect, 0)) = (next, n')) :
    ∃ t, RunsTo 2 s t ∧ FlushAt u next n' (es ++ [txD (chunkBytes u k)]) t := by
  have hdw : s.dw = u.dw := congrArg (·.2.1) h.view
  have hin : s.dw.inPanel s.params = true := by
    rcases h.inv.window with ⟨-, hin⟩ | hempty
    · exact hin
    · rw [← hdw, hempty] at hv
      cases hv
  obtain ⟨op, hsp⟩ := h.sp
  have hexec (t : State) (ht : t.sp = s.sp) : exec .flush t = chunkStep k t := exec_flush_chunk (ht.trans hsp)
  have hfit := chunkBytes_fit (k := k) h.inv.params (chunkCount_of_view h.view ▸ hk)
  rw [chunkBytes_of_view h.view] at hfit
  refine h.transfer (b := true) rfl hfit (r := { s with chunksIssued := sat16 (k + 1) }) ?_ rfl fun t ht hview hr => ?_
  · rw [hexec s rfl, chunkStep, if_pos hin, ← chunkBytes_of_view h.view]
    simp only [h.inv.noReply]
  · have hpanel : t.dw.inPanel t.params = true := by
      rw [show t.dw = s.dw from congrArg (·.2.1) hview, show t.params = s.params from congrArg (·.1) hview]
      exact hin
    have hcount : chunkCount { t with reply := none } = chunkCount u := chunkCount_of_view (hview.trans h.view)
    rw [hexec t ht, chunkStep, if_pos hpanel]
    simp only [hr, transferStep_ok, flushChunkAt, hcount]
    split_ifs at hnext ⊢ <;> cases hnext <;> rfl

/-- The `m` chunks left, one after another (R213). -/
theorem FlushAt.chunks (hv : u.dw.valid = true) (m : Nat) (hk : k + (m + 1) = chunkCount u)
    (h : FlushAt u .chunk k es s) : ∃ t, RunsTo (2 * (m + 1)) s t ∧
      FlushAt u .deselect 0 (es ++ (List.range' k (m + 1)).map fun j => txD (chunkBytes u j)) t := by
  induction m generalizing k es s with
  | zero =>
    obtain ⟨t, hrun, ht⟩ := h.chunk hv (by omega) (if_neg (by omega))
    exact ⟨t, hrun, ht⟩
  | succ m ih =>
    obtain ⟨t, hrun, ht⟩ := h.chunk hv (by omega) (if_pos (by omega))
    obtain ⟨t', hrun', ht'⟩ := ih (by omega) ht
    exact ⟨t', (hrun.trans hrun').mono (by omega), by simpa [List.range'_succ] using ht'⟩

end

/-- At a step that waits for nothing, nothing is waited for. -/
theorem Inv.quiet {s : State} {op : Byte} {st : SeqStep} {n : Nat} (h : Inv s) (hsp : s.sp = .run op st n)
    (hst : awaits st = false) : s.xfer.pending = false ∧ s.delay = none ∧ (s.lockReq && !s.locked) = false := by
  simp only [awaits, Bool.or_eq_false_iff] at hst
  obtain ⟨⟨hmode, hdelay⟩, hacq⟩ := hst
  refine ⟨?_, ?_, ?_⟩
  · by_contra hx
    have := (h.transfer (by simpa using hx)).1
    simp [hsp, spStep, hmode] at this
  · by_contra hd
    obtain ⟨ms, hms⟩ := Option.ne_none_iff_exists'.1 hd
    have := (h.delaying ms hms).2
    simp [hsp, spStep, hdelay] at this
  · by_contra hl
    obtain ⟨hreq, hlk⟩ : s.lockReq = true ∧ s.locked = false := by simpa using hl
    have := h.lockWait hreq hlk
    simp [hsp, spStep, hacq] at this

section
variable {u : State} {op : Byte} {n : Nat} {rest : List Word}

/-- A FLUSH of a window opens: CHUNKS cleared, FLUSHING, and the lock acquired (R176, R179, R280). -/
theorem flush_opens (hinv : Inv u) (hsp : u.sp = .run op .begin n) (hdec : decode (asmWords u) = .ok (.flush, rest))
    (hst : u.state = .ready) (hc : u.closePending = false) (hv : u.dw.valid = true) :
    ∃ s, RunsTo 3 u s ∧ FlushAt u .select 0 (if u.params.sharedBus then [.lock] else []) s := by
  obtain ⟨hx, hd, hl⟩ := hinv.quiet hsp rfl
  have hr : u.reply = none := hinv.noReply
  have hlk : u.locked = false := by
    have hlevels := hinv.levels
    rw [hsp] at hlevels
    exact congrArg (·.2.2) hlevels
  have hreq : u.lockReq = false := by simpa [hlk] using hl
  have hcheck : check .flush { u with turns := [] } = .ok := by
    simp [check, hst, validIn, inBounds, needsInit]
  let s₁ : State := goto .acquire 0 { u with turns := [], chunksIssued := 0, chunksTotal := 0, state := .flushing }
  have hbegin : exec .flush { u with turns := [] } = .next s₁ := by
    rw [exec_flush_begin (s := { u with turns := [] }) hsp, checked_ok hcheck]
    exact if_pos hv
  obtain ⟨hrun₁, hinv₁⟩ := runsTo_core hinv hsp hdec hc hx hd hl hbegin
  have hsp₁ : s₁.sp = .run op .acquire 0 := by simp [s₁, hsp]
  cases hb : u.params.sharedBus with
  | false =>
    have htaken : exec .flush s₁ = .next (goto .select 0 (takeLock { s₁ with reply := none })) := by
      rw [exec_flush_acquire hsp₁, acquireStep, if_neg (by simp [s₁, hb])]
    obtain ⟨hrun₂, hinv₂⟩ := runsTo_core hinv₁ hsp₁ hdec hc hx hd hl htaken
    exact ⟨_, (hrun₁.trans hrun₂).mono (by omega), {
      inv := hinv₂
      view := rfl
      decoded := ⟨rest, hdec⟩
      sp := ⟨op, by simp [hsp₁]⟩
      turns := rfl
      noTransfer := hx
      noClose := hc
      trace := by simp [s₁, hb] }⟩
  | true =>
    have hrequest : exec .flush s₁ = .next { s₁ with lockReq := true } := by
      rw [exec_flush_acquire hsp₁, acquireStep, if_pos (by simp [s₁, hb])]
      simp only [s₁, goto_reply, hr]
    obtain ⟨hrun₂, hinv₂⟩ := runsTo_core hinv₁ hsp₁ hdec hc hx hd hl hrequest
    have htaken : exec .flush { s₁ with lockReq := true, reply := some .ok } =
        .next (goto .select 0 (takeLock { s₁ with lockReq := true, reply := none })) := by
      rw [exec_flush_acquire (s := { s₁ with lockReq := true, reply := some .ok }) hsp₁, acquireStep, if_pos (by simp [s₁, hb])]
    obtain ⟨hrun₃, hinv₃⟩ := runsTo_grant (s := { s₁ with lockReq := true }) hinv₂ hsp₁ hdec hc hx hd
      (by simp [s₁, hlk]) htaken
    exact ⟨_, (hrun₁.trans (hrun₂.trans hrun₃)).mono (by omega), {
      inv := hinv₃
      view := rfl
      decoded := ⟨rest, hdec⟩
      sp := ⟨op, by simp [hsp₁]⟩
      turns := rfl
      noTransfer := hx
      noClose := hc
      trace := by simp [s₁, hb] }⟩

/-- The transfers of a FLUSH, all answered OK: the window's three groups, then the chunks (R206, R213). -/
theorem flush_transfers {es : List Event} {s : State} (h : FlushAt u (.group .caset .cmdMode) n es s)
    (hv : u.dw.valid = true) :
    ∃ t, RunsTo (19 + 2 * chunkCount u) s t ∧ FlushAt u .deselect 0 (es ++ flushTransfers u) t := by
  have hbuf : 4 ≤ u.params.tbufBytes := by
    rw [← show s.params = u.params from congrArg (·.1) h.view]
    exact (maxChunk_bounds h.inv.params).2.2.2
  have hview {t : State} (ht : flushView t = flushView u) : t.params = u.params ∧ t.dw = u.dw :=
    ⟨congrArg (·.1) ht, congrArg (·.2.1) ht⟩
  obtain ⟨t₁, hrun₁, h₁⟩ := h.group (next := .group .raset .cmdMode) (cmd := u.params.bytes.caset) (params := casetParams u)
    (fun t m ⟨op, k, hsp⟩ ht => by simp only [exec_flush_caset hsp, casetParams, hview ht]) hbuf
  obtain ⟨t₂, hrun₂, h₂⟩ := h₁.group (next := .group .ramwr .cmdMode) (cmd := u.params.bytes.raset) (params := rasetParams u)
    (fun t m ⟨op, k, hsp⟩ ht => by simp only [exec_flush_raset hsp, rasetParams, hview ht]) hbuf
  obtain ⟨t₃, hrun₃, h₃⟩ := h₂.group (next := .pixelMode) (cmd := u.params.bytes.ramwr) (params := [])
    (fun t m ⟨op, k, hsp⟩ ht => by simp only [exec_flush_ramwr hsp, hview ht]) (Nat.zero_le _)
  have hpos : 0 < chunkCount u := by
    rw [← chunkCount_of_view h.view]
    exact chunkCount_pos h.inv.params
  have hpixels : exec .flush t₃ = .next (goto .chunk 0 (dataModeLine { t₃ with chunksTotal := sat16 (chunkCount t₃) })) := by
    obtain ⟨op, hsp⟩ := h₃.sp
    have hcount : 0 < chunkCount (dataModeLine { t₃ with chunksTotal := sat16 (chunkCount t₃) }) := by
      rw [chunkCount_of_view (t := dataModeLine { t₃ with chunksTotal := sat16 (chunkCount t₃) }) (s := u) h₃.view]
      exact hpos
    rw [exec_flush_pixelMode hsp, pixelModeStep,
      lineOp_ready _ (s := { t₃ with chunksTotal := sat16 (chunkCount t₃) }) h₃.noTransfer, andThen_next, flushChunkAt,
      if_pos hcount]
  obtain ⟨hrun₄, h₄⟩ := h₃.advance (ev := []) rfl (by simp) hpixels rfl rfl (by simp)
  obtain ⟨t₅, hrun₅, h₅⟩ := h₄.chunks hv (chunkCount u - 1) (by omega)
  refine ⟨t₅, (hrun₁.trans (hrun₂.trans (hrun₃.trans (hrun₄.trans hrun₅)))).mono (by omega), ?_⟩
  rw [show chunkCount u - 1 + 1 = chunkCount u by omega] at h₅
  simpa [flushTransfers, windowEvents, List.range_eq_range', List.append_assoc] using h₅

/-- A FLUSH of a window whose transfers are all answered OK has the wire form of `flushEvents` and ends in READY with DW
empty (R220, R279, R283). -/
theorem flush_run (hinv : Inv u) (hsp : u.sp = .run op .begin n) (hdec : decode (asmWords u) = .ok (.flush, rest))
    (hst : u.state = .ready) (hc : u.closePending = false) (hv : u.dw.valid = true) :
    ∃ e, drive (commandBound u) [] u = .next e ∧ e.sp = .idle ∧ e.busy = false ∧ e.state = .ready ∧ e.result = .ok ∧
      e.lastOp = 5 ∧ e.dw = Window.empty ∧ e.pb = u.pb ∧ e.trace = u.trace ++ flushEvents u := by
  obtain ⟨s₁, hrun₁, h₁⟩ := flush_opens hinv hsp hdec hst hc hv
  have hselect : exec .flush s₁ = .next (goto (.group .caset .cmdMode) 0 (selectLine s₁)) := by
    obtain ⟨op₁, hsp₁⟩ := h₁.sp
    rw [exec_flush_select hsp₁, lineOp_ready _ h₁.noTransfer, andThen_next]
  have hcs₁ : s₁.csN = true := congrArg (·.1) h₁.levels
  obtain ⟨hrun₂, h₂⟩ := h₁.advance (ev := [.cs false]) rfl (by simp) hselect rfl rfl (by simp [hcs₁])
  obtain ⟨s₃, hrun₃, h₃⟩ := flush_transfers h₂ hv
  have hdeselect : exec .flush s₃ = .next (goto .release 0 (deselectLine s₃)) := by
    obtain ⟨op₃, hsp₃⟩ := h₃.sp
    rw [exec_flush_deselect hsp₃, deselectStep, lineOp_ready _ h₃.noTransfer]
  have hcs₃ : s₃.csN = false := congrArg (·.1) h₃.levels
  obtain ⟨s₄, hrun₄, h₄⟩ : ∃ s₄, RunsTo 1 s₃ s₄ ∧
      FlushAt u .release 0 ((if u.params.sharedBus then [.lock] else []) ++ [.cs false] ++ flushTransfers u ++ [.cs true]) s₄ :=
    ⟨_, h₃.advance (ev := [.cs true]) rfl (by simp) hdeselect rfl rfl (by simp [hcs₃])⟩
  obtain ⟨op₄, hsp₄⟩ := h₄.sp
  obtain ⟨hrun₅, -⟩ := h₄.core rfl (by simp) (exec_flush_release hsp₄)
  have hend := (hrun₁.trans (hrun₂.trans (hrun₃.trans (hrun₄.trans hrun₅)))).drive (bound := commandBound u)
    (complete_sp .ok _) (by simp only [commandBound]; omega)
  have hlocked : s₄.locked = true := congrArg (·.2.2) h₄.levels
  have hview := h₄.view
  simp only [flushView, Prod.mk.injEq] at hview
  obtain ⟨hparams, -, hpb, -, hasm⟩ := hview
  have hop : opField u.asm.hdr = 5 := (decode_ok_opcode hdec).symm
  exact ⟨flushEnd s₄, hend, rfl, rfl, rfl, rfl, by simp [flushEnd, hasm, hop], rfl, hpb,
    by simp [flushEnd, hlocked, hparams, h₄.trace, flushEvents, frameEvents]⟩

/-! ## Write a pixel, then flush -/

/-- A WRITE_PIXEL that completes OK: the pixel reads back, and DW grows to cover it (R241). -/
theorem writePixel_ok {color x y : Half} {s t : State} (h : exec (.writePixel color x y) s = .next t)
    (hok : t.result = .ok) :
    readPixel t (pixelIndex t.params x.toNat y.toNat) = color ∧ t.dw = s.dw.extend x y x y := by
  obtain ⟨-, hbody⟩ := atBegin_eq_next (show execWritePixel color x y s = .next t from h)
  rcases checked_eq_next hbody with ⟨-, hwrite⟩ | ⟨hcode, rfl⟩
  · obtain ⟨v, hstore, hdone⟩ := andThen_eq_next.1 hwrite
    have hread := readPixel_storePixel hstore (pixelIndex s.params x.toNat y.toNat)
    obtain ⟨-, rfl⟩ := storePixel_eq_next.1 hstore
    cases hdone
    exact ⟨hread.trans (if_pos rfl), rfl⟩
  · exact absurd hok hcode

/-- The window of one pixel: its stream is that pixel's two bytes, high byte first (R208). -/
theorem pixelStream_of_one_pixel {s : State} {x y : Half} (h : s.dw = ⟨true, x, y, x, y⟩) :
    pixelStream s = be16 (readPixel s (pixelIndex s.params x.toNat y.toNat)) := by
  simp [pixelStream, h, Window.width, Window.height]

/-- Settles O45: the write leaves DW the window of its one pixel, which reads the colour; the FLUSH's run has the wire form
of that window, and a panel receives its columns, its rows and its stream. -/
theorem writeThenFlushSendsTheColour : Obligations.WriteThenFlushSendsTheColour := by
  intro color x y s t u op n rest _ _ _ hempty hwrite hok hinv ⟨op', m, hsp⟩ hdec hclose hready hparams hdw hpb hdraw
  obtain ⟨hread, hgrown⟩ := writePixel_ok hwrite hok
  have hwindow : u.dw = ⟨true, x, y, x, y⟩ := by rw [hdw, hgrown, hempty]; rfl
  have hcolour : readPixel u (pixelIndex u.params x.toNat y.toNat) = color := by
    rw [← hread, readPixel, readPixel, hparams, hpb, hdraw]
  obtain ⟨e, hrun, -, -, -, -, -, -, -, htrace⟩ := flush_run hinv hsp hdec hready hclose (by rw [hwindow])
  refine ⟨e, flushEvents u, hrun, htrace, ?_⟩
  rw [received_flushEvents hinv.params, pixelStream_of_one_pixel hwindow, hcolour, casetParams, rasetParams, hwindow]
  rfl

end

end Sys2Proof.Machine

/-!
PROOFS. The statements of 20_memory on DRAW_IMAGE's data words: which entries of PB they write (O16).
-/

namespace Sys2Proof.Machine

/-! ## Where an image's pixels lie -/

/-- Row-major indices of panel pixels differ when their columns or rows do (R82). -/
theorem pixelIndex_inj {p : Params} {x y x' y' : Nat} (hx : x < p.panelW) (hx' : x' < p.panelW)
    (h : pixelIndex p x y = pixelIndex p x' y') : x = x' ∧ y = y' := by
  have hdiv : ∀ a b, a < p.panelW → pixelIndex p a b / p.panelW = b := fun a b ha => by
    rw [pixelIndex, Nat.add_comm, Nat.add_mul_div_right _ _ (by omega), Nat.div_eq_of_lt ha, Nat.zero_add]
  have hrow : y = y' := by rw [← hdiv x y hx, h, hdiv x' y' hx']
  subst hrow
  exact ⟨Nat.add_left_cancel h, rfl⟩

section
variable {s t u : State} {i j m n : Nat} {px : Nat → Half}

/-- Every pixel of an image that fits is a pixel of the panel (R247, R248). -/
theorem imagePixel_inPanel (hfit : imageFits s = true) (hi : i < imageW s * imageH s) :
    (loHalf (imageXY s)).toNat + i % imageW s < s.params.panelW ∧
      (hiHalf (imageXY s)).toNat + i / imageW s < s.params.panelH := by
  obtain ⟨hx, hy⟩ := imageInPanel_pixels hfit (by omega)
  have hcol : i % imageW s < imageW s := Nat.mod_lt _ (Nat.pos_of_mul_pos_right (by omega : 0 < imageW s * imageH s))
  have hrow : i / imageW s < imageH s := Nat.div_lt_of_lt_mul hi
  omega

theorem imagePixelIndex_lt_of_fits (hfit : imageFits s = true) (hi : i < imageW s * imageH s) :
    imagePixelIndex s i < pbSize s.params :=
  pixelIndex_lt (imagePixel_inPanel hfit hi).1 (imagePixel_inPanel hfit hi).2

/-- Two pixels of an image that fits have two entries of PB (R82, R247). -/
theorem imagePixelIndex_inj (hfit : imageFits s = true) (hi : i < imageW s * imageH s) (hj : j < imageW s * imageH s)
    (h : imagePixelIndex s i = imagePixelIndex s j) : i = j := by
  obtain ⟨hmod, hdiv⟩ := pixelIndex_inj (imagePixel_inPanel hfit hi).1 (imagePixel_inPanel hfit hj).1 h
  calc i = imageW s * (i / imageW s) + i % imageW s := (Nat.div_add_mod ..).symm
    _ = imageW s * (j / imageW s) + j % imageW s := by rw [Nat.add_left_cancel hmod, Nat.add_left_cancel hdiv]
    _ = j := Nat.div_add_mod ..

/-! ## What has been drawn -/

/-- `t` is `s` after the image's pixels from the first one not yet received up to pixel `m` were stored with the values
`px` (R252); `left` is free, because the assembler counts words apart from pixels. -/
structure Drawn (px : Nat → Half) (m : Nat) (s t : State) : Prop where
  rest : t = { s with pb := t.pb, asm := { s.asm with k := m, left := t.asm.left } }
  stored : ∀ i, s.asm.k ≤ i → i < m → readPixel t (imagePixelIndex s i) = px i
  frame : ∀ a, (∀ i, s.asm.k ≤ i → i < m → a ≠ imagePixelIndex s i) → readPixel t a = readPixel s a

/-- An image that is being received with the verdict OK: it fits the panel (R247, R248, R252). -/
structure Receiving (s : State) : Prop where
  phase : s.asm.phase = .data
  verdict : s.asm.verdict = .ok
  fits : imageFits s = true

/-- What is told by the words received before the data, the parameters, the verdict and the phase is the same after. -/
theorem Drawn.receiving (h : Drawn px m s t) (hs : Receiving s) : Receiving t := by
  rw [h.rest]
  exact ⟨hs.phase, hs.verdict, hs.fits⟩

theorem Drawn.k (h : Drawn px m s t) : t.asm.k = m := by rw [h.rest]

theorem Drawn.size (h : Drawn px m s t) : imageW t * imageH t = imageW s * imageH s := by
  rw [h.rest]
  rfl

theorem Drawn.pixelIndex (h : Drawn px m s t) (i : Nat) : imagePixelIndex t i = imagePixelIndex s i := by
  rw [h.rest]
  rfl

theorem Drawn.refl (h : s.asm.k = m) : Drawn px m s s where
  rest := by subst h; rfl
  stored := fun _ _ _ => by omega
  frame := fun _ _ => rfl

/-- Counting words changes nothing that is drawn. -/
theorem Drawn.withLeft (h : Drawn px m s t) (left : Nat) :
    Drawn px m s { t with asm := { t.asm with left := left } } where
  rest := by
    rw [h.rest]
  stored := h.stored
  frame := h.frame

/-- Drawing goes on where it stopped; the later pixels leave the earlier ones alone, having other entries (R82). -/
theorem Drawn.trans (hst : Drawn px m s t) (htu : Drawn px n t u) (hfit : imageFits s = true) (hm : s.asm.k ≤ m)
    (hmn : m ≤ n) (hn : n ≤ imageW s * imageH s) : Drawn px n s u where
  rest := by
    have h := htu.rest
    rw [hst.rest] at h
    exact h
  stored := by
    intro i hki hin
    by_cases him : i < m
    · rw [htu.frame, hst.stored i hki him]
      intro j hj hjn heq
      rw [hst.k] at hj
      rw [hst.pixelIndex] at heq
      have : i = j := imagePixelIndex_inj hfit (by omega) (by omega) heq
      omega
    · rw [← hst.pixelIndex, htu.stored i (by rw [hst.k]; omega) hin]
  frame := by
    intro a ha
    rw [htu.frame a fun i hi hin => ?_, hst.frame a fun i hi him => ha i hi (by omega)]
    rw [hst.pixelIndex]
    exact ha i (by rw [hst.k] at hi; omega) hin

/-! ## One pixel, one word, all words -/

/-- A pixel of a data word is stored at the next pixel's entry, or ignored after the image's last (R252). -/
theorem drawPixel_draws (p : Half) (hs : Receiving s) (hk : s.asm.k ≤ imageW s * imageH s)
    (hp : s.asm.k < imageW s * imageH s → px s.asm.k = p) :
    ∃ t, drawPixel p s = .next t ∧ t.asm.left = s.asm.left ∧
      Drawn px (min (s.asm.k + 1) (imageW s * imageH s)) s t := by
  by_cases hlt : s.asm.k < imageW s * imageH s
  · obtain ⟨u, hstore⟩ : ∃ u, storePixel (imagePixelIndex s s.asm.k) p s = .next u :=
      ⟨_, storePixel_eq_next.2 ⟨imagePixelIndex_lt_of_fits hs.fits hlt, rfl⟩⟩
    have hread := readPixel_storePixel hstore
    obtain ⟨-, hu⟩ := storePixel_eq_next.1 hstore
    refine ⟨countPixel u, ?_, by rw [hu]; rfl, ?_⟩
    · simp only [drawPixel, if_pos hlt, if_pos hs.verdict, hstore, andThen_next]
    · rw [min_eq_left hlt]
      refine ⟨by rw [hu]; rfl, fun i hi him => ?_, fun a ha => ?_⟩
      · obtain rfl : i = s.asm.k := by omega
        exact (hread _).trans ((if_pos rfl).trans (hp hlt).symm)
      · exact (hread a).trans (if_neg (ha _ le_rfl (by omega)))
  · exact ⟨s, if_neg hlt, rfl, Drawn.refl (by omega)⟩

/-- A data word draws its two pixels, P0 first (R124, R252). -/
theorem drawData_draws (w : Word) (hs : Receiving s) (hk : s.asm.k ≤ imageW s * imageH s)
    (hlo : s.asm.k < imageW s * imageH s → px s.asm.k = loHalf w)
    (hhi : s.asm.k + 1 < imageW s * imageH s → px (s.asm.k + 1) = hiHalf w) :
    ∃ t, drawData w s = .next t ∧ t.asm.left = s.asm.left ∧
      Drawn px (min (s.asm.k + 2) (imageW s * imageH s)) s t := by
  obtain ⟨t, ht, hleft, hst⟩ := drawPixel_draws (loHalf w) hs hk hlo
  obtain ⟨u, hu, hleft', htu⟩ := drawPixel_draws (px := px) (hiHalf w) (hst.receiving hs)
    (by rw [hst.size, hst.k]; omega) fun hlt => by
      rw [hst.size, hst.k] at hlt
      rw [hst.k, show min (s.asm.k + 1) (imageW s * imageH s) = s.asm.k + 1 by omega]
      exact hhi (by omega)
  rw [hst.size, hst.k, show min (min (s.asm.k + 1) (imageW s * imageH s) + 1) (imageW s * imageH s) =
    min (s.asm.k + 2) (imageW s * imageH s) by omega] at htu
  exact ⟨u, by rw [drawData, ht, andThen_next, hu], hleft'.trans hleft,
    hst.trans htu hs.fits (by omega) (by omega) (by omega)⟩

/-- A data word that is accepted: its pixels are drawn, one word fewer is left, and the last one starts the command
(R126). -/
theorem accept_draws (w : Word) (hs : Receiving s) (hk : s.asm.k ≤ imageW s * imageH s)
    (hlo : s.asm.k < imageW s * imageH s → px s.asm.k = loHalf w)
    (hhi : s.asm.k + 1 < imageW s * imageH s → px (s.asm.k + 1) = hiHalf w) :
    ∃ t, accept w s = .next (if s.asm.left - 1 = 0 then startCommand t else t) ∧ t.asm.left = s.asm.left - 1 ∧
      Drawn px (min (s.asm.k + 2) (imageW s * imageH s)) s t := by
  obtain ⟨t, ht, hleft, hst⟩ := drawData_draws w hs hk hlo hhi
  refine ⟨{ t with asm := { t.asm with left := t.asm.left - 1 } }, ?_, congrArg (· - 1) hleft, hst.withLeft _⟩
  simp only [accept, hs.phase, acceptData, ht, andThen_next, hleft]

theorem wordPixel_cons_add_two (w : Word) (ws : List Word) (i : Nat) : wordPixel (w :: ws) (i + 2) = wordPixel ws i := by
  simp [wordPixel]

/-- The data words of an accepted image, from any pixel on: word after word, each with the pixels it holds (R247). -/
theorem acceptWords_draws (w : Word) (ws : List Word) (hs : Receiving s) (hk : s.asm.k ≤ imageW s * imageH s)
    (henough : imageW s * imageH s ≤ s.asm.k + 2 * s.asm.left) (hlen : (w :: ws).length = s.asm.left)
    (hpx : ∀ i, s.asm.k + i < imageW s * imageH s → px (s.asm.k + i) = wordPixel (w :: ws) i) :
    ∃ t, acceptWords (w :: ws) s = .next (startCommand t) ∧ Drawn px (imageW s * imageH s) s t := by
  induction ws generalizing w s with
  | nil =>
    have hone : s.asm.left = 1 := hlen.symm
    obtain ⟨t, ht, -, hst⟩ := accept_draws w hs hk (hpx 0) (hpx 1)
    rw [hone, if_pos rfl] at ht
    rw [show min (s.asm.k + 2) (imageW s * imageH s) = imageW s * imageH s by omega] at hst
    exact ⟨t, by rw [acceptWords, ht]; rfl, hst⟩
  | cons v ws ih =>
    simp only [List.length_cons] at hlen
    obtain ⟨t, ht, hleft, hst⟩ := accept_draws w hs hk (hpx 0) (hpx 1)
    rw [if_neg (by omega)] at ht
    obtain ⟨u, hu, htu⟩ := ih v (hst.receiving hs) (by rw [hst.size, hst.k]; omega)
      (by rw [hst.size, hst.k, hleft]; omega) (by rw [hleft, List.length_cons]; omega) fun i hi => by
        rw [hst.size, hst.k] at hi
        rw [hst.k, show min (s.asm.k + 2) (imageW s * imageH s) + i = s.asm.k + (i + 2) by omega,
          hpx _ (by omega), wordPixel_cons_add_two]
    rw [hst.size] at htu
    exact ⟨u, by rw [acceptWords, ht, andThen_next, hu], hst.trans htu hs.fits (by omega) (by omega) le_rfl⟩

end

/-- Settles O16: all the image's pixels are drawn from pixel 0 on, and then the command starts. -/
theorem drawImageDataWritesPixels : Obligations.DrawImageDataWritesPixels := by
  intro s ws hphase hverdict hfit hk hpixels hleft hlen
  obtain ⟨w, ws, rfl⟩ : ∃ w rest, ws = w :: rest :=
    List.exists_cons_of_length_pos (by rw [hlen, hleft]; exact ceilDiv_pos hpixels (by decide))
  have henough := le_two_mul_ceilDiv (imageW s * imageH s)
  obtain ⟨t, ht, hdrawn⟩ := acceptWords_draws (px := wordPixel (w :: ws)) w ws ⟨hphase, hverdict, hfit⟩ (by omega)
    (by omega) hlen fun i _ => by rw [hk, Nat.zero_add]
  refine ⟨startCommand t, ht, ?_, ?_, rfl, ?_, fun i hi => ?_, fun a ha => ?_⟩
  · rw [hdrawn.rest]
    rfl
  · rw [hdrawn.rest]
    rfl
  · rw [hdrawn.rest]
    exact hverdict
  · exact hdrawn.stored i (by omega) hi
  · exact hdrawn.frame a fun i _ hi => ha i hi

end Sys2Proof.Machine

/-!
PROOFS. Pixel values never steer the machine (20_memory R86; O59): every operation of the machine, applied to a state whose
pixels, staged bytes and events are forgotten, takes the same step as on the state itself.
-/

namespace Sys2Proof.Machine

/-! ## Blindness to data -/

/-- Seen through `view`, the result of `f` is the same when the data of its state are forgotten first. -/
def BlindUnder {α β : Type} (view : α → β) (f : State → α) : Prop := ∀ s, view (f s) = view (f (eraseData s))

/-- An operation that does not see pixel values, staged bytes and recorded events: forgetting them before it changes
nothing but them after it. -/
def Blind (f : State → Out) : Prop := BlindUnder eraseOut f

/-- The same of an update. -/
def BlindUpdate (f : State → State) : Prop := BlindUnder eraseData f

@[simp] theorem eraseData_sp (s : State) : (eraseData s).sp = s.sp := rfl
@[simp] theorem eraseData_params (s : State) : (eraseData s).params = s.params := rfl
@[simp] theorem eraseData_reply (s : State) : (eraseData s).reply = s.reply := rfl
@[simp] theorem eraseData_held (s : State) : (eraseData s).held = s.held := rfl
@[simp] theorem eraseData_turns (s : State) : (eraseData s).turns = s.turns := rfl
@[simp] theorem eraseData_asm (s : State) : (eraseData s).asm = s.asm := rfl
@[simp] theorem asmWords_eraseData (s : State) : asmWords (eraseData s) = asmWords s := rfl

/-- A test that does not see data chooses between what does not see data. -/
theorem BlindUnder.ite {α β : Type} {view : α → β} {f g : State → α} {c : State → Prop} [DecidablePred c]
    (hc : ∀ s, c (eraseData s) ↔ c s) (hf : BlindUnder view f) (hg : BlindUnder view g) :
    BlindUnder view fun s => if c s then f s else g s := by
  intro s
  dsimp only
  by_cases h : c s
  · rw [if_pos h, if_pos ((hc s).2 h)]
    exact hf s
  · rw [if_neg h, if_neg (mt (hc s).1 h)]
    exact hg s

theorem BlindUpdate.ite {f g : State → State} {c : State → Prop} [DecidablePred c] (hc : ∀ s, c (eraseData s) ↔ c s)
    (hf : BlindUpdate f) (hg : BlindUpdate g) : BlindUpdate fun s => if c s then f s else g s := BlindUnder.ite hc hf hg

/-- An update that does not see data, after another. -/
theorem BlindUpdate.comp {f upd : State → State} (hf : BlindUpdate f) (h : BlindUpdate upd) :
    BlindUpdate fun s => f (upd s) := by
  intro s
  dsimp only
  rw [hf (upd s), hf (upd (eraseData s)), h s]

section
variable {f g : State → Out} {u v : State}

theorem Blind.ite {c : State → Prop} [DecidablePred c] (hc : ∀ s, c (eraseData s) ↔ c s) (hf : Blind f) (hg : Blind g) :
    Blind fun s => if c s then f s else g s := BlindUnder.ite hc hf hg

/-- A blind operation takes states that differ in data only to outcomes that differ in data only. -/
theorem Blind.congr (hf : Blind f) (h : eraseData u = eraseData v) : eraseOut (f u) = eraseOut (f v) := by
  rw [hf u, hf v, h]

theorem Blind.next {upd : State → State} (h : BlindUpdate upd) : Blind fun s => .next (upd s) :=
  fun s => congrArg Host.Outcome.next (h s)

theorem Blind.fault (r : Fault) : Blind fun _ => .fault r := fun _ => rfl

theorem Blind.refused (r : Refusal) : Blind fun _ => .refused r := fun _ => rfl

/-- A blind operation after an update that does not see data. -/
theorem Blind.comp (hf : Blind f) {upd : State → State} (h : BlindUpdate upd) : Blind fun s => f (upd s) :=
  fun s => hf.congr (h s)

/-- What follows an outcome, if it is blind, goes by what is left of the outcome without data. -/
theorem eraseOut_andThen (hg : Blind g) (o : Out) : eraseOut (andThen o g) = eraseOut (andThen (eraseOut o) g) := by
  cases o with
  | next s => exact hg s
  | fault r => rfl
  | refused r => rfl

theorem Blind.andThen (hf : Blind f) (hg : Blind g) : Blind fun s => andThen (f s) g := by
  intro s
  rw [eraseOut_andThen hg, hf s, ← eraseOut_andThen hg]

/-! ## The shared operations -/

theorem Blind.goto (st : SeqStep) (n : Nat) : Blind fun s => .next (goto st n s) := .next fun _ => rfl

theorem Blind.lineOp {line : State → State} (h : BlindUpdate line) : Blind (lineOp line) :=
  .ite (fun _ => .rfl) (.fault _) (.next h)

theorem storePixel_blind (i : Nat) (p : Half) : Blind (storePixel i p) :=
  .ite (fun _ => .rfl) (.next fun _ => rfl) (.fault _)

/-- What a request leaves but for data: of the bytes it stages, only their number is seen (R84, R86, R170). -/
theorem eraseOut_requestTransfer (bytes : List Byte) (s : State) : eraseOut (requestTransfer bytes s) =
    if s.xfer.pending then .fault .secondTransfer
    else if bytes.length = 0 ∨ s.params.tbufBytes < bytes.length then .fault .transferLength
    else .next { eraseData s with xfer := { pending := true, len := bytes.length } } := by
  unfold requestTransfer
  split_ifs <;> rfl

/-- Two requests for the same number of bytes differ in data only. -/
theorem requestTransfer_erase {bytes bytes' : List Byte} (hlen : bytes.length = bytes'.length) (s : State) :
    eraseOut (requestTransfer bytes s) = eraseOut (requestTransfer bytes' (eraseData s)) := by
  rw [eraseOut_requestTransfer, eraseOut_requestTransfer, hlen]
  rfl

/-- Two transfer steps for the same number of bytes differ in data only. -/
theorem transferStep_erase {bytes bytes' : List Byte} (hlen : bytes.length = bytes'.length) (hf : Blind f) (s : State) :
    eraseOut (transferStep bytes f s) = eraseOut (transferStep bytes' f (eraseData s)) := by
  simp only [transferStep, eraseData_reply]
  split
  · exact requestTransfer_erase hlen s
  · exact hf.congr rfl
  · rfl

theorem Blind.transferStep (bytes : List Byte) (hf : Blind f) : Blind (transferStep bytes f) :=
  transferStep_erase rfl hf

theorem Blind.delayStep (ms : Half) (hf : Blind f) : Blind (delayStep ms f) := by
  refine .ite (fun _ => .rfl) (hf.comp fun _ => rfl) fun s => ?_
  rw [eraseData_reply]
  cases s.reply with
  | none => rfl
  | some a => exact hf.congr rfl

theorem Blind.enterDelay (ms : Half) (hold : SeqStep) (n : Nat) (hf : Blind f) : Blind (enterDelay ms hold n f) :=
  .ite (fun _ => .rfl) hf (.goto hold n)

theorem Blind.acquireStep (hf : Blind f) : Blind (acquireStep f) := by
  refine .ite (fun _ => .rfl) (fun s => ?_) (hf.comp fun _ => rfl)
  rw [eraseData_reply]
  cases s.reply with
  | none => rfl
  | some a => exact hf.congr rfl

theorem Blind.releaseStep (hf : Blind f) : Blind (releaseStep f) := hf.comp fun _ => rfl

theorem Blind.deselectStep (st : SeqStep) : Blind (deselectStep st) := .lineOp fun _ => rfl

theorem Blind.checked (i : Instr) (hf : Blind f) : Blind (checked i f) :=
  .ite (fun _ => .rfl) hf (.next fun _ => rfl)

theorem Blind.atBegin (hf : Blind f) : Blind (atBegin f) := by
  intro s
  unfold Machine.atBegin
  rw [eraseData_sp]
  split
  · exact hf s
  · rfl

theorem Blind.finish (st : DriverState) (c : Code) : Blind (finish st c) := .next fun _ => rfl

theorem Blind.complete (c : Code) : Blind fun s => .next (complete c s) := .next fun _ => rfl

theorem Blind.groupStep (g : Group) (m : GroupStep) (n : Nat) (cmd : Byte) (params : List Byte) (hf : Blind f) :
    Blind (groupStep g m n cmd params f) := by
  cases m with
  | cmdMode => exact .lineOp fun _ => rfl
  | cmdByte => exact .transferStep _ (.ite (c := fun _ => params = []) (fun _ => .rfl) hf (.goto _ _))
  | dataMode => exact .lineOp fun _ => rfl
  | params => exact .transferStep _ hf
  | settle => exact .fault _

/-- A frame opens with chip-select (R179). -/
theorem Blind.selectStep (hf : Blind f) : Blind fun s => Machine.andThen (Machine.lineOp selectLine s) f :=
  (Blind.lineOp fun _ => rfl).andThen hf

end

/-! ## The commands -/

theorem initBegin_blind (orient : BitVec 2) (bgr inv : Bool) : Blind (initBegin orient bgr inv) := .next fun _ => rfl

theorem initOpen_blind : Blind initOpen := .next fun _ => rfl

theorem initEntryAt_blind (n : Nat) : Blind (initEntryAt n) :=
  .ite (fun _ => .rfl) (.goto _ _) (.goto _ _)

theorem initGroup_blind (m : GroupStep) (n : Nat) : Blind (initGroup m n) := by
  intro s
  unfold initGroup
  rw [eraseData_params]
  cases s.params.initTable[n]? with
  | none => rfl
  | some e =>
    cases m with
    | settle => exact Blind.delayStep _ (initEntryAt_blind _) s
    | _ => exact Blind.groupStep _ _ _ _ _ (Blind.enterDelay _ _ _ (initEntryAt_blind _)) s

/-- INIT's arms in order (R272). -/
theorem execInit_blind (resetMs : Half) (orient : BitVec 2) (bgr inv : Bool) :
    Blind (execInit resetMs orient bgr inv) := by
  intro s
  unfold execInit
  rw [eraseData_sp]
  generalize s.sp = sp
  split
  case h_1 => exact Blind.checked _ (initBegin_blind _ _ _) s
  case h_2 => exact (Blind.lineOp fun _ => rfl).andThen (.enterDelay _ _ _ (.goto _ _)) s
  case h_3 => exact Blind.delayStep _ (.goto _ _) s
  case h_4 => exact (Blind.lineOp fun _ => rfl).andThen (.enterDelay _ _ _ initOpen_blind) s
  case h_5 => exact Blind.delayStep _ initOpen_blind s
  case h_6 => exact Blind.acquireStep (.goto _ _) s
  case h_7 => exact Blind.selectStep (initEntryAt_blind _) s
  case h_8 => exact initGroup_blind _ _ s
  case h_9 => exact Blind.deselectStep _ s
  case h_10 => exact Blind.releaseStep (.enterDelay _ _ _ (.finish _ _)) s
  case h_11 => exact Blind.delayStep _ (.finish _ _) s
  case h_12 => exact Blind.deselectStep _ s
  case h_13 => exact Blind.releaseStep (.finish _ _) s
  case h_14 => rfl

theorem flushBegin_blind : Blind flushBegin :=
  .ite (fun _ => .rfl) (.next fun _ => rfl) (.next fun _ => rfl)

theorem flushChunkAt_blind (k : Nat) : Blind (flushChunkAt k) :=
  .ite (fun _ => .rfl) (.goto _ _) (.goto _ _)

theorem pixelModeStep_blind : Blind pixelModeStep :=
  ((Blind.lineOp fun _ => rfl).comp fun _ => rfl).andThen (flushChunkAt_blind 0)

/-- The chunk's request is where pixel values move (R213); their number is the chunk plan's, whatever they are. -/
theorem chunkStep_blind (k : Nat) : Blind (chunkStep k) := by
  refine .ite (fun _ => .rfl) (fun s => ?_) (.fault _)
  have hlen : (chunkBytes s k).length = (chunkBytes (eraseData s) k).length := by
    rw [chunkBytes_length, chunkBytes_length]
    rfl
  rw [eraseData_reply]
  cases s.reply with
  | none => exact requestTransfer_erase hlen _
  | some a => exact transferStep_erase hlen (flushChunkAt_blind _) s

/-- FLUSH's arms in order (R279). -/
theorem execFlush_blind : Blind execFlush := by
  intro s
  unfold execFlush
  rw [eraseData_sp]
  generalize s.sp = sp
  split
  case h_1 => exact Blind.checked _ flushBegin_blind s
  case h_2 => exact Blind.acquireStep (.goto _ _) s
  case h_3 => exact Blind.selectStep (.goto _ _) s
  case h_4 => exact Blind.groupStep _ _ _ _ _ (.goto _ _) s
  case h_5 => exact Blind.groupStep _ _ _ _ _ (.goto _ _) s
  case h_6 => exact Blind.groupStep _ _ _ _ _ (.goto _ _) s
  case h_7 => exact pixelModeStep_blind s
  case h_8 => exact chunkStep_blind _ s
  case h_9 => exact Blind.deselectStep _ s
  case h_10 => exact Blind.releaseStep ((Blind.finish _ _).comp fun _ => rfl) s
  case h_11 => exact Blind.deselectStep _ s
  case h_12 => exact Blind.releaseStep (.finish _ _) s
  case h_13 => rfl

/-- SLEEP's arms in order (R289). -/
theorem execSleep_blind : Blind execSleep := by
  intro s
  unfold execSleep
  rw [eraseData_sp]
  generalize s.sp = sp
  split
  case h_1 => exact Blind.checked _ (.goto _ _) s
  case h_2 => exact Blind.acquireStep (.goto _ _) s
  case h_3 => exact Blind.selectStep (.goto _ _) s
  case h_4 => exact Blind.groupStep _ _ _ _ _ (.goto _ _) s
  case h_5 => exact Blind.deselectStep _ s
  case h_6 => exact Blind.releaseStep (.enterDelay _ _ _ (.finish _ _)) s
  case h_7 => exact Blind.delayStep _ (.finish _ _) s
  case h_8 => exact Blind.deselectStep _ s
  case h_9 => exact Blind.releaseStep (.complete _) s
  case h_10 => rfl

/-- WAKE's arms in order (R294). -/
theorem execWake_blind : Blind execWake := by
  intro s
  unfold execWake
  rw [eraseData_sp]
  generalize s.sp = sp
  split
  case h_1 => exact Blind.checked _ (.goto _ _) s
  case h_2 => exact Blind.acquireStep (.goto _ _) s
  case h_3 => exact Blind.selectStep (.goto _ _) s
  case h_4 => exact Blind.groupStep _ _ _ _ _ (.goto _ _) s
  case h_5 => exact Blind.deselectStep _ s
  case h_6 => exact Blind.releaseStep (.enterDelay _ _ _ (.finish _ _)) s
  case h_7 => exact Blind.delayStep _ (.finish _ _) s
  case h_8 => exact Blind.deselectStep _ s
  case h_9 => exact Blind.releaseStep (.complete _) s
  case h_10 => rfl

/-- CLOSE's arms in order (R299). -/
theorem execClose_blind : Blind execClose := by
  intro s
  unfold execClose
  rw [eraseData_sp]
  generalize s.sp = sp
  split
  case h_1 => exact Blind.checked _ (.goto _ _) s
  case h_2 => exact Blind.deselectStep _ s
  case h_3 => exact Blind.releaseStep (.goto _ _) s
  case h_4 => exact (Blind.lineOp fun _ => rfl).andThen (.finish _ _) s
  case h_5 => rfl

theorem execWritePixel_blind (color x y : Half) : Blind (execWritePixel color x y) :=
  .atBegin (.checked _ (Blind.andThen (fun s => storePixel_blind (pixelIndex s.params x.toNat y.toNat) color s)
    (.next fun _ => rfl)))

theorem execDrawImage_blind (x y w h : Half) : Blind (execDrawImage x y w h) :=
  .atBegin (.ite (fun _ => .rfl)
    (.ite (fun _ => .rfl) (.next fun _ => rfl) (.complete _)) (.next fun _ => rfl))

theorem execClear_blind (color : Half) : Blind (execClear color) := .atBegin (.checked _ (.next fun _ => rfl))

/-- No step of a command sees data. -/
theorem exec_blind (i : Instr) : Blind (exec i) := by
  cases i with
  | init resetMs orient bgr inv => exact execInit_blind resetMs orient bgr inv
  | writePixel color x y => exact execWritePixel_blind color x y
  | drawImage x y w h => exact execDrawImage_blind x y w h
  | clear color => exact execClear_blind color
  | flush => exact execFlush_blind
  | sleep => exact execSleep_blind
  | wake => exact execWake_blind
  | close => exact execClose_blind

theorem completeIllegal_blind : Blind completeIllegal := by
  intro s
  unfold completeIllegal
  rw [eraseData_sp]
  split
  · exact Blind.ite (c := fun s => opField s.asm.hdr = 3) (fun _ => .rfl) (.next fun _ => rfl) (.next fun _ => rfl) s
  · rfl

theorem runCommand_blind : Blind runCommand := by
  intro s
  unfold runCommand
  rw [asmWords_eraseData]
  split
  · exact exec_blind _ s
  · exact completeIllegal_blind s
  · exact completeIllegal_blind s
  · rfl
  · rfl

theorem proceed_blind : Blind proceed :=
  .ite (fun _ => .rfl) (.next fun _ => rfl)
    runCommand_blind

/-! ## The assembler: the words of an image are stored and counted, and their pixels tested nowhere (R252) -/

theorem drawPixel_blind (p : Half) : Blind (drawPixel p) :=
  .ite (fun _ => .rfl)
    (.ite (fun _ => .rfl)
      (Blind.andThen (fun s => storePixel_blind (imagePixelIndex s s.asm.k) p s) (.next fun _ => rfl))
      (.next fun _ => rfl))
    (.next fun _ => rfl)

theorem drawData_blind (w : Word) : Blind (drawData w) := (drawPixel_blind _).andThen (drawPixel_blind _)

theorem acceptHeader_blind (w : Word) : BlindUpdate (acceptHeader w) := by
  intro s
  unfold acceptHeader
  cases operandWords (opField w) <;> rfl

theorem acceptOperand_blind (w : Word) : BlindUpdate (acceptOperand w) :=
  .ite (fun _ => .rfl)
    (.ite (fun _ => .rfl) (fun _ => rfl)
      (.ite (fun _ => .rfl) (fun _ => rfl) fun _ => rfl))
    fun _ => rfl

theorem acceptData_blind (w : Word) : Blind (acceptData w) :=
  (drawData_blind w).andThen (.next (.ite (fun _ => .rfl) (fun _ => rfl) fun _ => rfl))

theorem accept_blind (w : Word) : Blind (accept w) := by
  intro s
  unfold accept
  rw [eraseData_asm]
  cases s.asm.phase with
  | none => exact Blind.next (acceptHeader_blind w) s
  | oper => exact Blind.next (acceptOperand_blind w) s
  | data => exact acceptData_blind w s

/-! ## The host's port: no register holds data -/

theorem closeRequest_blind : BlindUpdate closeRequest :=
  .ite (fun _ => .rfl) (fun _ => rfl)
    (.ite (fun _ => .rfl)
      (.ite (fun _ => .rfl) (fun _ => rfl) fun _ => rfl)
      (.ite (fun _ => .rfl) (fun _ => rfl) fun _ => rfl))

theorem writeCtrl_blind (w : Word) : BlindUpdate (writeCtrl w) :=
  .ite (fun _ => .rfl)
    (closeRequest_blind.comp fun _ => rfl) fun _ => rfl

theorem writeCmd_blind (w : Word) : Blind (writeCmd w) :=
  .ite (fun _ => .rfl) (accept_blind w) (.next fun _ => rfl)

theorem writeReg_blind (off : Nat) (w : Word) : Blind (writeReg off w) := by
  intro s
  unfold writeReg
  split
  · exact writeCmd_blind w s
  · exact Blind.next (writeCtrl_blind w) s
  · rfl
  · rfl

theorem guardAccess_blind {addr width : Nat} {body : Nat → State → Out} (hbody : ∀ off, Blind (body off)) :
    Blind fun s => guardAccess addr width (fun off => body off s) s :=
  .ite (fun _ => .rfl)
    (.ite (fun _ => .rfl)
      (fun s => hbody (addr - s.params.regBase) s) (.refused _))
    (.refused _)

/-- What the host loads is told without pixels, staged bytes and events (R31, R86). -/
theorem readReg_eraseData (s : State) (off : Nat) : readReg (eraseData s) off = readReg s off := rfl

theorem hostAccess_blind (a : Access) : Blind (hostAccess a) := by
  cases a with
  | read addr width =>
    exact guardAccess_blind (body := fun off s => .next { s with rdata := readReg s off }) fun off => .next fun s =>
      congrArg (fun v => eraseData { s with rdata := v }) (readReg_eraseData s off).symm
  | write addr width w => exact guardAccess_blind (body := fun off s => writeReg off w s) fun off => writeReg_blind off w

theorem hostStep_blind (a : Access) : Blind (hostStep a) :=
  .ite (fun _ => .rfl) (.next fun _ => rfl)
    (hostAccess_blind a)

/-! ## The moves -/

/-- The core, idle with a word held, accepts it if the port is ready (R32, R367). -/
theorem acceptHeld_blind (w : Word) :
    Blind fun s => if cmdReady s then accept w { s with held := none } else .next s :=
  .ite (fun _ => .rfl) ((accept_blind w).comp fun _ => rfl) (.next fun _ => rfl)

/-- The core, executing, goes on with its command unless it is in a hold (R20, R303). -/
theorem goOn_blind :
    Blind fun s => if inHold s ∧ (s.closePending = false ∨ s.xfer.pending = true) then .next s else proceed s :=
  .ite (fun _ => .rfl) (.next fun _ => rfl) proceed_blind

theorem coreStep_blind : Blind coreStep := by
  intro s
  simp only [coreStep, eraseData_sp, eraseData_held]
  split
  · split
    · rfl
    · exact acceptHeld_blind _ s
  · exact goOn_blind s

/-- An answer's event records staged bytes, and what follows the answer does not see the trace (R50, R170). -/
theorem transportAnswer_blind (a : Answer) : Blind (transportAnswer a) :=
  .ite (fun _ => .rfl) (proceed_blind.comp fun _ => rfl) (.next fun _ => rfl)

theorem timerAnswer_blind : Blind timerAnswer :=
  .ite (fun _ => .rfl) (proceed_blind.comp fun _ => rfl) (.next fun _ => rfl)

theorem grantLock_blind : Blind grantLock :=
  .ite (fun _ => .rfl) (proceed_blind.comp fun _ => rfl) (.next fun _ => rfl)

theorem move_blind (m : Move) : Blind (move m) := by
  cases m with
  | rest => exact .next fun _ => rfl
  | core => exact coreStep_blind
  | transport a => exact transportAnswer_blind a
  | timer => exact timerAnswer_blind
  | grant => exact grantLock_blind
  | lateAnswer => exact .next fun _ => rfl
  | blockReset => exact .next fun _ => rfl

theorem takeTurn_blind (t : Turn) : Blind (takeTurn t) := by
  obtain ⟨host, m⟩ := t
  cases host with
  | none => exact move_blind m
  | some a => exact (hostStep_blind a).andThen (move_blind m)

theorem step_blind : Blind step := by
  intro s
  unfold step machineStep
  rw [eraseData_turns]
  cases s.turns with
  | nil => exact coreStep_blind s
  | cons t rest => exact (takeTurn_blind t).congr rfl

/-- Settles O59: a step does not see data, so it goes by what two states that differ in data only have in common. -/
theorem pixelValuesNeverSteerTheMachine : Obligations.PixelValuesNeverSteerTheMachine := fun _ _ h =>
  step_blind.congr h

end Sys2Proof.Machine

/-!
PROOFS. The statements of 20_memory on FLUSH and on the register block: what a step of FLUSH leaves unchanged (O33), its
frame up to the pixels (O29), and the accesses that are refused (O8).
-/

namespace Sys2Proof.Machine

/-! ## The reach of a step of FLUSH -/

/-- The fields that no step of a FLUSH writes (R279, R376). -/
def flushFixed (s : State) : CommandFrame × Bool × Cfg × Bool × Option Half × Memory 16 :=
  (commandFrame s, s.closePending, s.cfg, s.rstN, s.delay, s.pb)

/-- What a step of a FLUSH does to the rest: DW stays, TB changes only below `n` (R85), and events are only added. -/
structure FlushReach (n : Nat) (s t : State) : Prop where
  fixed : flushFixed t = flushFixed s
  dw : t.dw = s.dw
  tb : ∀ a, n ≤ a → t.tb.find? a = s.tb.find? a
  trace : s.trace <+: t.trace

/-- An operation that stays within the reach and stages nothing. -/
def StagesNothing (f : State → Out) : Prop := ∀ ⦃n : Nat⦄ ⦃s t : State⦄, f s = .next t → FlushReach n s t

section
variable {n k : Nat} {s t u : State} {f : State → Out}

theorem FlushReach.trans (hsu : FlushReach n s u) (hut : FlushReach n u t) : FlushReach n s t where
  fixed := hut.fixed.trans hsu.fixed
  dw := hut.dw.trans hsu.dw
  tb := fun a ha => (hut.tb a ha).trans (hsu.tb a ha)
  trace := hsu.trace.trans hut.trace

/-- An update that writes none of this but for adding events. -/
theorem FlushReach.logs (es : List Event) (h : (flushFixed t, t.dw, t.tb) = (flushFixed s, s.dw, s.tb))
    (htrace : t.trace = s.trace ++ es) : FlushReach n s t := by
  simp only [Prod.mk.injEq] at h
  obtain ⟨hfixed, hdw, htb⟩ := h
  exact ⟨hfixed, hdw, fun _ _ => by rw [htb], es, htrace.symm⟩

/-- An update that writes none of this. -/
theorem FlushReach.silent (h : (flushFixed t, t.dw, t.tb, t.trace) = (flushFixed s, s.dw, s.tb, s.trace)) :
    FlushReach n s t := by
  simp only [Prod.mk.injEq] at h
  obtain ⟨hfixed, hdw, htb, htrace⟩ := h
  exact .logs [] (by rw [hfixed, hdw, htb]) (by rw [htrace, List.append_nil])

theorem requestTransfer_reach {bytes : List Byte} (h : requestTransfer bytes s = .next t) :
    FlushReach bytes.length s t := by
  obtain ⟨-, rfl⟩ := requestTransfer_eq_next.1 h
  exact ⟨rfl, rfl, fun a ha => find?_stageFrom_above _ _ (by omega), [], List.append_nil _⟩

theorem StagesNothing.next {upd : State → State} (h : ∀ n s, FlushReach n s (upd s)) :
    StagesNothing fun s => .next (upd s) := by
  intro n s t ht
  cases ht
  exact h n s

theorem StagesNothing.goto (st : SeqStep) (k : Nat) : StagesNothing fun s => .next (goto st k s) :=
  .next fun _ _ => .silent rfl

theorem StagesNothing.checked (i : Instr) (hf : StagesNothing f) : StagesNothing (checked i f) := by
  intro n s t h
  rcases checked_eq_next h with ⟨-, h⟩ | ⟨-, rfl⟩
  · exact hf h
  · exact .silent rfl

theorem StagesNothing.acquireStep (hf : StagesNothing f) : StagesNothing (acquireStep f) := by
  intro n s t h
  rcases acquireStep_eq_next h with ⟨-, -, rfl⟩ | ⟨-, h⟩
  · exact .silent rfl
  · exact (FlushReach.logs (s := s) (t := takeLock { s with reply := none }) _ rfl rfl).trans (hf h)

theorem StagesNothing.lineOp {line : State → State} (hline : ∀ n s, FlushReach n s (line s)) (hf : StagesNothing f) :
    StagesNothing fun s => andThen (lineOp line s) f := by
  intro n s t h
  obtain ⟨u, hu, ht⟩ := andThen_eq_next.1 h
  obtain ⟨-, rfl⟩ := lineOp_eq_next.1 hu
  exact (hline n s).trans (hf ht)

theorem selectLine_reach (n : Nat) (s : State) : FlushReach n s (selectLine s) := .logs _ rfl rfl

theorem StagesNothing.deselectStep (st : SeqStep) : StagesNothing (deselectStep st) := by
  intro n s t h
  obtain ⟨-, rfl⟩ := deselectStep_eq_next h
  exact .logs _ rfl rfl

theorem StagesNothing.releaseStep (hf : StagesNothing f) : StagesNothing (releaseStep f) :=
  fun _ s _ h => (FlushReach.logs (s := s) (t := releaseLock s) _ rfl rfl).trans (hf h)

theorem StagesNothing.finish (d : DriverState) (c : Code) : StagesNothing (finish d c) := .next fun _ _ => .silent rfl

/-- The bytes a group stages at each of its micro-operations (R180). -/
def groupBytes (m : GroupStep) (cmd : Byte) (params : List Byte) : List Byte :=
  match m with
  | .cmdByte => [cmd]
  | .params => params
  | .cmdMode | .dataMode | .settle => []

/-- A step of a group stages the group's bytes when it has no answer to take (R170, R180). -/
theorem groupStep_reach {g : Group} {m : GroupStep} {cmd : Byte} {params staged : List Byte}
    (hf : StagesNothing f) (hstaged : s.reply = none → staged = groupBytes m cmd params)
    (h : groupStep g m k cmd params f s = .next t) : FlushReach staged.length s t := by
  rcases groupStep_eq_next h with ⟨-, -, rfl⟩ | ⟨-, -, rfl⟩ | ⟨rfl, hr, h⟩ | ⟨rfl, hr, h⟩ | ⟨-, -, -, rfl⟩ | ⟨-, -, h⟩ |
    ⟨-, -, rfl⟩
  · exact .silent rfl
  · exact .silent rfl
  · rw [hstaged hr]
    exact requestTransfer_reach h
  · rw [hstaged hr]
    exact requestTransfer_reach h
  · exact .silent rfl
  · exact FlushReach.trans (u := { s with reply := none }) (.silent rfl) (hf h)
  · exact .silent rfl

theorem flushBegin_stagesNothing : StagesNothing flushBegin := by
  intro n s t h
  simp only [flushBegin] at h
  split_ifs at h <;> cases h <;> exact .silent rfl

theorem flushChunkAt_stagesNothing (k : Nat) : StagesNothing (flushChunkAt k) := by
  intro n s t h
  rcases flushChunkAt_eq_next h with ⟨-, rfl⟩ | ⟨-, rfl⟩ <;> exact .silent rfl

theorem pixelModeStep_stagesNothing : StagesNothing pixelModeStep := fun _ s _ h =>
  FlushReach.trans (u := { s with chunksTotal := sat16 (chunkCount s) }) (.silent rfl)
    (StagesNothing.lineOp (line := dataModeLine) (fun _ _ => .silent rfl) (flushChunkAt_stagesNothing 0) h)

theorem chunkStep_reach {staged : List Byte} (hstaged : s.reply = none → staged = chunkBytes s k)
    (h : chunkStep k s = .next t) : FlushReach staged.length s t := by
  obtain ⟨-, ⟨hr, h⟩ | ⟨-, h⟩ | ⟨-, rfl⟩⟩ := chunkStep_eq_next h
  · rw [hstaged hr]
    exact FlushReach.trans (u := { s with chunksIssued := sat16 (k + 1) }) (.silent rfl) (requestTransfer_reach h)
  · exact FlushReach.trans (u := { s with reply := none }) (.silent rfl) (flushChunkAt_stagesNothing _ h)
  · exact .silent rfl

/-- What FLUSH stages in its three groups is the group's (R206). -/
theorem stagedBytes_flush_group {op : Byte} {g : Group} {m : GroupStep} {cmd : Byte} {params : List Byte}
    (hsp : s.sp = .run op (.group g m) n) (hg : g = .caset ∧ cmd = s.params.bytes.caset ∧ params = casetParams s ∨
      g = .raset ∧ cmd = s.params.bytes.raset ∧ params = rasetParams s ∨
      g = .ramwr ∧ cmd = s.params.bytes.ramwr ∧ params = []) (hr : s.reply = none) :
    stagedBytes .flush s = groupBytes m cmd params := by
  rcases hg with ⟨rfl, rfl, rfl⟩ | ⟨rfl, rfl, rfl⟩ | ⟨rfl, rfl, rfl⟩ <;>
    cases m <;> simp only [stagedBytes, hr, hsp, groupBytes]

/-- FLUSH's arms in order (R279): each but its successful end is within the reach, and stages the step's bytes. -/
theorem execFlush_reach (h : execFlush s = .next t) :
    FlushReach (stagedBytes .flush s).length s t ∨ (∃ n, AtStep s .release n) ∧ t = flushEnd s := by
  unfold execFlush at h
  split at h
  case h_10 op n hsp => exact .inr ⟨⟨n, op, hsp⟩, finish_eq_next h⟩
  all_goals refine .inl ?_
  case h_1 => exact StagesNothing.checked _ flushBegin_stagesNothing h
  case h_2 => exact StagesNothing.acquireStep (.goto _ _) h
  case h_3 => exact StagesNothing.lineOp selectLine_reach (.goto _ _) h
  case h_4 hsp => exact groupStep_reach (.goto _ _) (stagedBytes_flush_group hsp (.inl ⟨rfl, rfl, rfl⟩)) h
  case h_5 hsp => exact groupStep_reach (.goto _ _) (stagedBytes_flush_group hsp (.inr (.inl ⟨rfl, rfl, rfl⟩))) h
  case h_6 hsp => exact groupStep_reach (.goto _ _) (stagedBytes_flush_group hsp (.inr (.inr ⟨rfl, rfl, rfl⟩))) h
  case h_7 => exact pixelModeStep_stagesNothing h
  case h_8 hsp => exact chunkStep_reach (fun hr => by simp only [stagedBytes, hr, hsp]) h
  case h_9 => exact StagesNothing.deselectStep _ h
  case h_11 => exact StagesNothing.deselectStep _ h
  case h_12 => exact StagesNothing.releaseStep (.finish _ _) h
  case h_13 => cases h

/-- States that agree on what FLUSH does not write differ in what it may write only. -/
theorem eq_of_flushFixed (h : flushFixed t = flushFixed s) :
    t = { s with state := t.state, busy := t.busy, result := t.result, lastOp := t.lastOp, locked := t.locked,
                 intDone := t.intDone, intErr := t.intErr, dw := t.dw, chunksIssued := t.chunksIssued,
                 chunksTotal := t.chunksTotal, csN := t.csN, dc := t.dc, sp := t.sp, xfer := t.xfer,
                 lockReq := t.lockReq, reply := t.reply, tb := t.tb, trace := t.trace } := by
  obtain ⟨⟩ := s
  obtain ⟨⟩ := t
  simp only [flushFixed, commandFrame, Prod.mk.injEq, CommandFrame.mk.injEq] at h
  obtain ⟨⟨rfl, rfl, rfl, rfl, rfl, rfl, rfl⟩, rfl, rfl, rfl, rfl, rfl⟩ := h
  rfl

theorem draw_of_flushFixed (h : flushFixed t = flushFixed s) : t.draw = s.draw :=
  congrArg (fun p => p.1.draw) h

theorem readPixel_of_flushFixed (h : flushFixed t = flushFixed s) (a : Nat) : readPixel t a = readPixel s a := by
  have hpb : t.pb = s.pb := congrArg (fun p => p.2.2.2.2.2) h
  rw [readPixel, readPixel, hpb, draw_of_flushFixed h]

theorem FlushReach.readTb (h : FlushReach n s t) {a : Nat} (ha : n ≤ a) : readTb t a = readTb s a := by
  rw [Machine.readTb, Machine.readTb, h.tb a ha, draw_of_flushFixed h.fixed]

end

/-- Settles O33: a step within FLUSH's reach, or its end, which empties DW and completes OK. -/
theorem flushFrame : Obligations.FlushFrame := by
  intro s t h
  rcases execFlush_reach h with hreach | ⟨hat, rfl⟩
  · exact ⟨eq_of_flushFixed hreach.fixed, fun hne => absurd hreach.dw hne, readPixel_of_flushFixed hreach.fixed,
      fun _ => hreach.readTb, hreach.trace⟩
  · exact ⟨eq_of_flushFixed rfl, fun _ => ⟨rfl, rfl, rfl, hat⟩, fun _ => rfl, fun _ _ => rfl, _, rfl⟩

/-! ## A group's steps -/

/-- The outcome is a request for the given bytes, and nothing else (R170). -/
def Requests (bytes : List Byte) (s : State) (o : Out) : Prop :=
  ∃ t, o = .next t ∧ t = { s with tb := t.tb, xfer := t.xfer } ∧ t.xfer.pending = true ∧ sentBytes t = bytes

section
variable {s : State} {op : Byte} {st st' : SeqStep} {n k : Nat} {g : Group} {cmd : Byte} {params : List Byte}
  {onOk : State → Out}

theorem requestTransfer_requests {bytes : List Byte} (hx : s.xfer.pending = false) (hpos : 0 < bytes.length)
    (hfit : bytes.length ≤ s.params.tbufBytes) : Requests bytes s (requestTransfer bytes s) :=
  have hreq := requestTransfer_eq_next.2 ⟨⟨hx, hpos, hfit⟩, rfl⟩
  ⟨_, hreq, rfl, rfl, sentBytes_requestTransfer hreq⟩

theorem goto_of_run (hsp : s.sp = .run op st n) : goto st' k s = { s with sp := .run op st' k } := by
  simp only [goto, hsp, moveTo_run]

/-- An answer ERR leads to AbortFrame (R181, R270). -/
theorem transferStep_aborts {bytes : List Byte} (hsp : s.sp = .run op st n) (hr : s.reply = some .err) :
    transferStep bytes onOk s = .next { s with reply := none, sp := .run op .abortDeselect 0 } := by
  rw [transferStep_err hr, goto_of_run (s := { s with reply := none }) hsp]

theorem groupStep_cmdMode (hx : s.xfer.pending = false) (hsp : s.sp = .run op st n) :
    groupStep g .cmdMode k cmd params onOk s = .next { s with dc := false, sp := .run op (.group g .cmdByte) k } := by
  rw [groupStep, lineOp_ready _ hx, goto_of_run (s := cmdModeLine s) hsp]
  rfl

theorem groupStep_dataMode (hx : s.xfer.pending = false) (hsp : s.sp = .run op st n) :
    groupStep g .dataMode k cmd params onOk s = .next { s with dc := true, sp := .run op (.group g .params) k } := by
  rw [groupStep, lineOp_ready _ hx, goto_of_run (s := dataModeLine s) hsp]
  rfl

/-- The command byte's step without an answer (R180). -/
theorem groupStep_cmdByte_requests (hx : s.xfer.pending = false) (hr : s.reply = none) (hfit : 4 ≤ s.params.tbufBytes) :
    Requests [cmd] s (groupStep g .cmdByte k cmd params onOk s) := by
  rw [groupStep, transferStep_none hr]
  exact requestTransfer_requests hx Nat.one_pos (Nat.le_trans (by simp) hfit)

/-- The parameters' step without an answer (R180). -/
theorem groupStep_params_requests (hx : s.xfer.pending = false) (hr : s.reply = none) (hpos : 0 < params.length)
    (hfit : params.length ≤ s.params.tbufBytes) : Requests params s (groupStep g .params k cmd params onOk s) := by
  rw [groupStep, transferStep_none hr]
  exact requestTransfer_requests hx hpos hfit

/-- The command byte answered OK: the parameters follow (R180). -/
theorem groupStep_cmdByte_ok (hsp : s.sp = .run op st n) (hr : s.reply = some .ok) (hp : params ≠ []) :
    groupStep g .cmdByte k cmd params onOk s =
      .next { s with reply := none, sp := .run op (.group g .dataMode) k } := by
  rw [groupStep, transferStep_ok hr, if_neg hp, goto_of_run (s := { s with reply := none }) hsp]

/-- The command byte of a group without parameters answered OK: the group ends (R180). -/
theorem groupStep_cmdByte_last (hsp : s.sp = .run op st n) (hr : s.reply = some .ok) :
    groupStep g .cmdByte k cmd [] (fun t => .next (goto st' k t)) s =
      .next { s with reply := none, sp := .run op st' k } := by
  rw [groupStep, transferStep_ok hr, if_pos rfl, goto_of_run (s := { s with reply := none }) hsp]

/-- The parameters answered OK: the group ends (R180). -/
theorem groupStep_params_last (hsp : s.sp = .run op st n) (hr : s.reply = some .ok) :
    groupStep g .params k cmd params (fun t => .next (goto st' k t)) s =
      .next { s with reply := none, sp := .run op st' k } := by
  rw [groupStep, transferStep_ok hr, goto_of_run (s := { s with reply := none }) hsp]

theorem groupStep_cmdByte_err (hsp : s.sp = .run op st n) (hr : s.reply = some .err) :
    groupStep g .cmdByte k cmd params onOk s = .next { s with reply := none, sp := .run op .abortDeselect 0 }  := by
  rw [groupStep, transferStep_aborts hsp hr]

theorem groupStep_params_err (hsp : s.sp = .run op st n) (hr : s.reply = some .err) :
    groupStep g .params k cmd params onOk s = .next { s with reply := none, sp := .run op .abortDeselect 0 }  := by
  rw [groupStep, transferStep_aborts hsp hr]

/-- A coordinate's two parameter bytes (R93, R206). -/
theorem be16_offsetCoord (c : Half) (offset : Nat) : be16 (offsetCoord c offset) =
    [BitVec.ofNat 8 ((c.toNat + offset) % 2 ^ 16 / 2 ^ 8), BitVec.ofNat 8 (c.toNat + offset)] := by
  simp only [be16, offsetCoord, List.cons.injEq, and_true]
  constructor <;> apply BitVec.eq_of_toNat_eq
  · simp [Nat.shiftRight_eq_div_pow]
  · simp

end

/-- Settles O29: the frame's opening, the two window groups by one account of a group's steps, and RAMWR's. -/
theorem addressWindowStepByStep : Obligations.AddressWindowStepByStep := by
  intro s op n hx
  refine ⟨fun hsp hbus hr => ?exclusive, fun hsp hbus => ⟨fun hr => ?ask, fun hr => ?granted⟩, fun hsp hcs => ?select,
    fun g cmd lo hi offset next hg => ?window, fun hsp => ?mode, fun hsp hfit => ?ramwr⟩
  case exclusive =>
    simp only [exec_flush_acquire hsp, acquireStep, hbus, Bool.false_eq_true, if_false, takeLock, List.append_nil, goto,
      hsp, moveTo_run, hr]
  case ask => simp only [exec_flush_acquire hsp, acquireStep, hbus, if_true, hr]
  case granted =>
    simp only [exec_flush_acquire hsp, acquireStep, hbus, if_true, hr, takeLock, goto, hsp, moveTo_run]
  case select =>
    simp only [exec_flush_select hsp, lineOp_ready _ hx, andThen_next, selectLine, hcs, if_true, goto, hsp, moveTo_run]
  case window =>
    have hexec : ∀ m, s.sp = .run op (.group g m) n → exec .flush s =
        groupStep g m 0 cmd (be16 (offsetCoord lo offset) ++ be16 (offsetCoord hi offset))
          (fun t => .next (goto (.group next .cmdMode) 0 t)) s := by
      rcases hg with ⟨rfl, rfl, rfl, rfl, rfl, rfl⟩ | ⟨rfl, rfl, rfl, rfl, rfl, rfl⟩ <;> intro m hsp
      · exact exec_flush_caset hsp
      · exact exec_flush_raset hsp
    rw [be16_offsetCoord, be16_offsetCoord] at hexec
    refine ⟨fun hsp => ?_, fun hsp hfit => ?_, fun hsp => ?_, fun hsp hfit => ?_⟩ <;> rw [hexec _ hsp]
    · exact groupStep_cmdMode hx hsp
    · exact ⟨fun hr => groupStep_cmdByte_requests hx hr hfit, fun hr => groupStep_cmdByte_ok hsp hr (by simp),
        groupStep_cmdByte_err hsp⟩
    · exact groupStep_dataMode hx hsp
    · exact ⟨fun hr => groupStep_params_requests hx hr (by simp) hfit, groupStep_params_last hsp,
        groupStep_params_err hsp⟩
  case mode => exact (exec_flush_ramwr hsp).trans (groupStep_cmdMode hx hsp)
  case ramwr =>
    rw [exec_flush_ramwr hsp]
    exact ⟨fun hr => groupStep_cmdByte_requests hx hr hfit, groupStep_cmdByte_last hsp, groupStep_cmdByte_err hsp⟩

/-! ## Undefined accesses -/

theorem guardAccess_outside {addr width : Nat} {s : State} (body : Nat → Out)
    (h : addr < s.params.regBase ∨ s.params.regBase + 0x3F < addr) :
    guardAccess addr width body s = .refused .outsideBlock := by
  have hin : inBlock s.params addr = false := by
    simp [inBlock]
    omega
  simp only [guardAccess, hin, Bool.false_eq_true, if_false]

theorem guardAccess_undefined {addr width : Nat} {s : State} (body : Nat → Out) (hlo : s.params.regBase ≤ addr)
    (hhi : addr ≤ s.params.regBase + 0x3F) (h : width ≠ 32 ∨ (addr - s.params.regBase) % 4 ≠ 0) :
    guardAccess addr width body s = .refused .undefinedAccess := by
  have hin : inBlock s.params addr = true := by
    simp [inBlock]
    omega
  have hdef : definedAccess s.params addr width = false := by
    simp [definedAccess]
    tauto
  simp only [guardAccess, hin, hdef, Bool.false_eq_true, if_false, if_true]

/-- Settles O8: a load and a store are refused by one guard. -/
theorem undefinedAccessesRefused : Obligations.UndefinedAccessesRefused := by
  intro s addr width v
  simp only [hostAccess]
  exact ⟨fun h => ⟨guardAccess_outside _ h, guardAccess_outside _ h⟩,
    fun hlo hhi h => ⟨guardAccess_undefined _ hlo hhi h, guardAccess_undefined _ hlo hhi h⟩⟩

end Sys2Proof.Machine

/-!
PROOFS. The statements of 30_encoding: words by the value of their fields, decoding and encoding (O1, O2), illegal headers
(O3), the worked words of the spec (O4), host-program lines (O5), and the assembler's way from a command's first word to its
start (O15, O17).
-/

namespace Sys2Proof

/-! ## The value of a word's fields -/

section
variable (w hdr : Word) (op : Byte) (hi lo v ms : Half) (orient : BitVec 2) (bgr inv : Bool)

theorem extractLsb'_toNat_div (start len : Nat) : (w.extractLsb' start len).toNat = w.toNat / 2 ^ start % 2 ^ len := by
  rw [BitVec.extractLsb'_toNat, Nat.shiftRight_eq_div_pow]

theorem getLsbD_toNat_div (k : Nat) : (w.getLsbD k).toNat = w.toNat / 2 ^ k % 2 := Nat.toNat_testBit _ _

theorem opField_toNat : (opField w).toNat = w.toNat / 2 ^ 24 := by
  have := w.isLt
  rw [opField, extractLsb'_toNat_div]
  omega

theorem loHalf_toNat : (loHalf w).toNat = w.toNat % 2 ^ 16 := by
  rw [loHalf, extractLsb'_toNat_div, pow_zero, Nat.div_one]

theorem hiHalf_toNat : (hiHalf w).toNat = w.toNat / 2 ^ 16 := by
  have := w.isLt
  rw [hiHalf, extractLsb'_toNat_div]
  omega

theorem header_toNat (arg : BitVec 24) : (header op arg).toNat = arg.toNat + 2 ^ 24 * op.toNat :=
  Machine.toNat_append_fields op arg

theorem arg16_toNat : (arg16 v).toNat = v.toNat := Machine.toNat_append_fields 0 v

theorem argInit_toNat : (argInit ms orient bgr inv).toNat =
    ms.toNat + 2 ^ 16 * orient.toNat + 2 ^ 18 * bgr.toNat + 2 ^ 19 * inv.toNat := by
  simp only [argInit, Machine.toNat_append_fields, BitVec.toNat_ofBool]
  simp
  omega

/-! ## A word from its fields, and its fields from the word -/

/-- The encoding's words have the fields they were made of (R121 to R123). -/
theorem loHalf_pairWord : loHalf (pairWord hi lo) = lo := BitVec.extractLsb'_append_eq_right

theorem hiHalf_pairWord : hiHalf (pairWord hi lo) = hi := by
  apply BitVec.eq_of_toNat_eq
  have := lo.isLt
  rw [hiHalf_toNat, Machine.pairWord_toNat]
  omega

theorem loHalf_header_arg16 : loHalf (header op (arg16 v)) = v := by
  apply BitVec.eq_of_toNat_eq
  have := v.isLt
  rw [loHalf_toNat, header_toNat, arg16_toNat]
  omega

theorem loHalf_header_argInit : loHalf (header op (argInit ms orient bgr inv)) = ms := by
  apply BitVec.eq_of_toNat_eq
  have := ms.isLt
  rw [loHalf_toNat, header_toNat, argInit_toNat]
  omega

theorem orient_header_argInit : (header op (argInit ms orient bgr inv)).extractLsb' 16 2 = orient := by
  apply BitVec.eq_of_toNat_eq
  have := ms.isLt
  have := orient.isLt
  rw [extractLsb'_toNat_div, header_toNat, argInit_toNat]
  omega

theorem bgr_header_argInit : (header op (argInit ms orient bgr inv)).getLsbD 18 = bgr := by
  simp only [header, argInit, BitVec.getLsbD_append]
  simp

theorem inv_header_argInit : (header op (argInit ms orient bgr inv)).getLsbD 19 = inv := by
  simp only [header, argInit, BitVec.getLsbD_append]
  simp

theorem pairWord_halves : pairWord (hiHalf w) (loHalf w) = w := by
  apply BitVec.eq_of_toNat_eq
  rw [Machine.pairWord_toNat, loHalf_toNat, hiHalf_toNat]
  omega

variable {hdr op}

/-- A header whose must-be-zero bits are 0 is its opcode and its other fields (R127). -/
theorem eq_header_argInit (hop : opField hdr = op) (h : hdr.extractLsb' 20 4 = 0) :
    hdr = header op (argInit (loHalf hdr) (hdr.extractLsb' 16 2) (hdr.getLsbD 18) (hdr.getLsbD 19)) := by
  have hzero : hdr.toNat / 2 ^ 20 % 2 ^ 4 = 0 := by rw [← extractLsb'_toNat_div, h]; rfl
  apply BitVec.eq_of_toNat_eq
  rw [header_toNat, argInit_toNat, ← hop, opField_toNat, loHalf_toNat, extractLsb'_toNat_div, getLsbD_toNat_div,
    getLsbD_toNat_div]
  omega

theorem eq_header_arg16 (hop : opField hdr = op) (h : hdr.extractLsb' 16 8 = 0) :
    hdr = header op (arg16 (loHalf hdr)) := by
  have hzero : hdr.toNat / 2 ^ 16 % 2 ^ 8 = 0 := by rw [← extractLsb'_toNat_div, h]; rfl
  apply BitVec.eq_of_toNat_eq
  rw [header_toNat, arg16_toNat, ← hop, opField_toNat, loHalf_toNat]
  omega

theorem eq_header_zero (hop : opField hdr = op) (h : hdr.extractLsb' 0 24 = 0) : hdr = header op 0 := by
  have hzero : hdr.toNat / 2 ^ 0 % 2 ^ 24 = 0 := by rw [← extractLsb'_toNat_div, h]; rfl
  apply BitVec.eq_of_toNat_eq
  rw [header_toNat, ← hop, opField_toNat, BitVec.ofNat_eq_ofNat, BitVec.toNat_zero]
  omega

end

/-! ## The decoder, opcode by opcode -/

section
variable {hdr : Word} {ws rest : List Word} {i : Instr}

theorem decode_legal (hop : definedOp (opField hdr) = true) (hclear : rsvzClear hdr = true) :
    decode (hdr :: ws) = decodeOp hdr ws := by
  simp only [decode, hop, hclear, if_true]

theorem decode_ok_iff : decode (hdr :: ws) = .ok (i, rest) ↔
    definedOp (opField hdr) = true ∧ rsvzClear hdr = true ∧ decodeOp hdr ws = .ok (i, rest) := by
  simp only [decode]
  split_ifs <;> simp [*]

theorem decodeOp_init (h : opField hdr = 1) : decodeOp hdr ws =
    .ok (.init (loHalf hdr) (hdr.extractLsb' 16 2) (hdr.getLsbD 18) (hdr.getLsbD 19), ws) := by simp [decodeOp, h]

theorem decodeOp_writePixel {xy : Word} (h : opField hdr = 2) :
    decodeOp hdr (xy :: ws) = .ok (.writePixel (loHalf hdr) (loHalf xy) (hiHalf xy), ws) := by simp [decodeOp, h]

theorem decodeOp_drawImage {xy wh : Word} (h : opField hdr = 3) :
    decodeOp hdr (xy :: wh :: ws) = .ok (.drawImage (loHalf xy) (hiHalf xy) (loHalf wh) (hiHalf wh), ws) := by
  simp [decodeOp, h]

theorem decodeOp_clear (h : opField hdr = 4) : decodeOp hdr ws = .ok (.clear (loHalf hdr), ws) := by simp [decodeOp, h]
theorem decodeOp_flush (h : opField hdr = 5) : decodeOp hdr ws = .ok (.flush, ws) := by simp [decodeOp, h]
theorem decodeOp_sleep (h : opField hdr = 6) : decodeOp hdr ws = .ok (.sleep, ws) := by simp [decodeOp, h]
theorem decodeOp_wake (h : opField hdr = 7) : decodeOp hdr ws = .ok (.wake, ws) := by simp [decodeOp, h]
theorem decodeOp_close (h : opField hdr = 8) : decodeOp hdr ws = .ok (.close, ws) := by simp [decodeOp, h]

/-- The must-be-zero bits by opcode (R127). -/
theorem rsvzClear_init (h : opField hdr = 1) : rsvzClear hdr = true ↔ hdr.extractLsb' 20 4 = 0 := by
  simp [rsvzClear, h]

theorem rsvzClear_colour (h : opField hdr = 2 ∨ opField hdr = 4) :
    rsvzClear hdr = true ↔ hdr.extractLsb' 16 8 = 0 := by
  rcases h with h | h <;> simp [rsvzClear, h]

theorem rsvzClear_noArgument (h1 : opField hdr ≠ 1) (h2 : opField hdr ≠ 2) (h4 : opField hdr ≠ 4) :
    rsvzClear hdr = true ↔ hdr.extractLsb' 0 24 = 0 := by
  unfold rsvzClear
  split
  · exact absurd (BitVec.eq_of_toNat_eq ‹_›) h1
  · exact absurd (BitVec.eq_of_toNat_eq ‹_›) h2
  · exact absurd (BitVec.eq_of_toNat_eq ‹_›) h4
  · exact beq_iff_eq

/-! ## Decoding and encoding -/

theorem encodedForm (i : Instr) : Laws.EncodedForm.Statement i := by
  cases i with
  | init ms orient bgr inv => exact Laws.EncodedForm.init ms orient bgr inv
  | writePixel color x y => exact Laws.EncodedForm.writePixel color x y
  | drawImage x y w h => exact Laws.EncodedForm.drawImage x y w h
  | clear color => exact Laws.EncodedForm.clear color
  | flush => exact Laws.EncodedForm.flush
  | sleep => exact Laws.EncodedForm.sleep
  | wake => exact Laws.EncodedForm.wake
  | close => exact Laws.EncodedForm.close

/-- An encoding's header is legal (R127, R129), so what decodes is its opcode's row of the map. -/
theorem decode_encode_words (h : encode i = hdr :: ws) : decode (encode i ++ rest) = decodeOp hdr (ws ++ rest) := by
  obtain ⟨-, hdr', ws', henc, hop, -, hdef, hclear⟩ := encodedForm i
  obtain ⟨rfl, rfl⟩ := List.cons.inj (h.symm.trans henc)
  rw [h]
  exact decode_legal (hop ▸ hdef) hclear

open Laws (opField_header)

/-- Settles O1: the encoding's header is legal, and each field of its words is read back. -/
theorem decodeEncodeRoundTrip : Obligations.DecodeEncodeRoundTrip := by
  intro i rest
  cases i with
  | init ms orient bgr inv =>
    rw [decode_encode_words rfl, decodeOp_init (opField_header _ _), loHalf_header_argInit, orient_header_argInit,
      bgr_header_argInit, inv_header_argInit]
    rfl
  | writePixel color x y =>
    rw [decode_encode_words rfl, List.singleton_append, decodeOp_writePixel (opField_header _ _), loHalf_header_arg16,
      loHalf_pairWord, hiHalf_pairWord]
  | drawImage x y w h =>
    rw [decode_encode_words rfl, List.cons_append, List.singleton_append, decodeOp_drawImage (opField_header _ _),
      loHalf_pairWord, loHalf_pairWord, hiHalf_pairWord, hiHalf_pairWord]
  | clear color =>
    rw [decode_encode_words rfl, decodeOp_clear (opField_header _ _), loHalf_header_arg16]
    rfl
  | flush => exact (decode_encode_words rfl).trans (decodeOp_flush (opField_header _ _))
  | sleep => exact (decode_encode_words rfl).trans (decodeOp_sleep (opField_header _ _))
  | wake => exact (decode_encode_words rfl).trans (decodeOp_wake (opField_header _ _))
  | close => exact (decode_encode_words rfl).trans (decodeOp_close (opField_header _ _))

/-- Settles O2: for each command the header is put together again from its fields, and so are the operand words. -/
theorem encodeDecodeRoundTrip : Obligations.EncodeDecodeRoundTrip := by
  intro ws i rest h
  cases ws with
  | nil => cases h
  | cons hdr ws =>
    obtain ⟨-, hclear, hmap⟩ := decode_ok_iff.1 h
    have hop := (decode_ok_opcode h).symm
    have noArgument : ∀ {op : Byte}, opField hdr = op → op ≠ 1 → op ≠ 2 → op ≠ 4 → hdr = header op 0 := by
      rintro _ rfl h1 h2 h4
      exact eq_header_zero rfl ((rsvzClear_noArgument h1 h2 h4).1 hclear)
    cases i with
    | init ms orient bgr inv =>
      cases (decodeOp_init hop).symm.trans hmap
      exact congrArg (· :: _) (eq_header_argInit hop ((rsvzClear_init hop).1 hclear))
    | writePixel color x y =>
      cases ws with
      | nil => simp [decodeOp, hop, Instr.opcode] at hmap
      | cons xy ws =>
        cases (decodeOp_writePixel hop).symm.trans hmap
        rw [encode, pairWord_halves]
        exact congrArg (· :: _) (eq_header_arg16 hop ((rsvzClear_colour (.inl hop)).1 hclear))
    | drawImage x y w h =>
      obtain ⟨xy, wh, rfl, rfl, rfl, rfl, rfl⟩ := decode_drawImage h
      rw [encode, pairWord_halves, pairWord_halves]
      exact congrArg (· :: _) (noArgument (op := 3) hop (by decide) (by decide) (by decide))
    | clear color =>
      cases (decodeOp_clear hop).symm.trans hmap
      exact congrArg (· :: _) (eq_header_arg16 hop ((rsvzClear_colour (.inr hop)).1 hclear))
    | flush =>
      cases (decodeOp_flush hop).symm.trans hmap
      exact congrArg (· :: _) (noArgument hop (by decide) (by decide) (by decide))
    | sleep =>
      cases (decodeOp_sleep hop).symm.trans hmap
      exact congrArg (· :: _) (noArgument hop (by decide) (by decide) (by decide))
    | wake =>
      cases (decodeOp_wake hop).symm.trans hmap
      exact congrArg (· :: _) (noArgument hop (by decide) (by decide) (by decide))
    | close =>
      cases (decodeOp_close hop).symm.trans hmap
      exact congrArg (· :: _) (noArgument hop (by decide) (by decide) (by decide))

end

/-! ## Illegal headers -/

section
variable {hdr : Word} {ws : List Word} {op : Byte}

theorem opField_eq_ofNat (w : Word) : opField w = BitVec.ofNat 8 (w.toNat / 2 ^ 24) := by
  rw [← opField_toNat, BitVec.ofNat_toNat, BitVec.setWidth_eq]

theorem opField_eq_iff : opField hdr = op ↔ hdr.toNat / 2 ^ 24 = op.toNat := by
  rw [← BitVec.toNat_inj, opField_toNat]

theorem decode_reservedOpcode (hop : opField hdr = op) (h : definedOp op = false) :
    decode (hdr :: ws) = .error (.reservedOpcode op) := by
  simp only [decode, hop, h, Bool.false_eq_true, if_false]

theorem decode_setBits (hop : opField hdr = op) (hdef : definedOp op = true) (h : rsvzClear hdr = false) :
    decode (hdr :: ws) = .error (.reservedBits op) := by
  simp only [decode, hop, hdef, h, if_true, Bool.false_eq_true, if_false]

/-- A field that is 0 has no bit in its mask. -/
theorem and_fieldMask_of_field_zero {start len : Nat} {w : Word} (h : w.extractLsb' start len = 0) :
    w &&& ((BitVec.allOnes len).setWidth 32 <<< start) = 0 := by
  apply BitVec.eq_of_getLsbD_eq
  intro k hk
  have hbit := congrArg (BitVec.getLsbD · (k - start)) h
  simp only [BitVec.getLsbD_extractLsb'] at hbit
  by_cases hin : start ≤ k ∧ k - start < len
  · simp [hin.2, Nat.add_sub_cancel' hin.1] at hbit
    simp [hbit]
  · simp
    omega

/-- The masks of R127: a set bit of an opcode's mask is a must-be-zero bit that is 1. -/
theorem rsvzClear_of_mask
    (h : (opField hdr = 1 ∧ hdr &&& 0x00F00000 ≠ 0) ∨
      ((opField hdr = 2 ∨ opField hdr = 4) ∧ hdr &&& 0x00FF0000 ≠ 0) ∨
      ((opField hdr ≠ 1 ∧ opField hdr ≠ 2 ∧ opField hdr ≠ 4) ∧ hdr &&& 0x00FFFFFF ≠ 0)) : rsvzClear hdr = false := by
  rw [Bool.eq_false_iff]
  intro hclear
  rcases h with ⟨hop, hmask⟩ | ⟨hop, hmask⟩ | ⟨⟨h1, h2, h4⟩, hmask⟩
  · exact hmask (and_fieldMask_of_field_zero ((rsvzClear_init hop).1 hclear))
  · exact hmask (and_fieldMask_of_field_zero ((rsvzClear_colour hop).1 hclear))
  · exact hmask (and_fieldMask_of_field_zero ((rsvzClear_noArgument h1 h2 h4).1 hclear))

/-- Settles O3: the opcode is not in the map, or the mask of its row finds a must-be-zero bit set. -/
theorem illegalHeadersRejected : Obligations.IllegalHeadersRejected := by
  intro hdr rest
  rw [← opField_toNat, BitVec.ofNat_toNat, BitVec.setWidth_eq]
  refine ⟨fun h => decode_reservedOpcode rfl ?_, fun h => decode_setBits rfl ?_ (rsvzClear_of_mask ?_)⟩
  · simp only [definedOp, Bool.and_eq_false_iff, decide_eq_false_iff_not]
    omega
  · simp only [definedOp, Bool.and_eq_true, decide_eq_true_eq]
    omega
  · simp only [← BitVec.toNat_inj, BitVec.ofNat_eq_ofNat, BitVec.toNat_ofNat, ne_eq] at h ⊢
    omega

end

/-! ## The spec's worked words -/

theorem decode_of_eq_encode {ws rest : List Word} {i : Instr} (h : ws = encode i ++ rest) : decode ws = .ok (i, rest) :=
  h ▸ decodeEncodeRoundTrip i rest

/-- Settles O4: the legal words are encodings (O1), the illegal ones have a reserved opcode or a must-be-zero bit set. -/
theorem specWordsDecode : Obligations.SpecWordsDecode :=
  ⟨decode_of_eq_encode (by decide), decode_of_eq_encode (by decide), decode_of_eq_encode (by decide),
    decode_of_eq_encode (by decide), rfl, decode_of_eq_encode (by decide), by decide, rfl,
    decode_of_eq_encode (by decide), rfl, decode_of_eq_encode (by decide), decode_of_eq_encode (by decide),
    decode_of_eq_encode (by decide), decode_of_eq_encode (by decide), decode_of_eq_encode (by decide),
    decode_of_eq_encode (by decide), decode_reservedOpcode rfl rfl, rfl, decode_reservedOpcode rfl rfl, rfl,
    decode_reservedOpcode rfl rfl, rfl, decode_setBits rfl rfl rfl, decode_setBits rfl rfl rfl, rfl,
    decode_setBits rfl rfl rfl, rfl, decode_setBits rfl rfl rfl, decode_setBits rfl rfl rfl⟩

/-! ## Host-program lines -/

section
variable {base v : Nat} {w : Word} {l : HostLine}

/-- A line with an operand outside its field width is an assembler error (R137). -/
theorem expand_refused (h : ¬ l.wellFormed = true) : l.expand base = none := if_neg h

theorem init_wellFormed_iff {ms o b v : Nat} :
    (HostLine.init ms o b v).wellFormed = true ↔ ms < 2 ^ 16 ∧ o < 4 ∧ b < 2 ∧ v < 2 := by
  simp only [HostLine.wellFormed, Bool.and_eq_true, decide_eq_true_eq]
  omega

theorem writePixel_wellFormed_iff {x y c : Nat} :
    (HostLine.writePixel x y c).wellFormed = true ↔ x < 2 ^ 16 ∧ y < 2 ^ 16 ∧ c < 2 ^ 16 := by
  simp only [HostLine.wellFormed, Bool.and_eq_true, decide_eq_true_eq]
  omega

theorem drawImage_wellFormed_iff {x y w h : Nat} {ps : List Nat} : (HostLine.drawImage x y w h ps).wellFormed = true ↔
    (x < 2 ^ 16 ∧ y < 2 ^ 16 ∧ w < 2 ^ 16 ∧ h < 2 ^ 16 ∧ ∀ p ∈ ps, p < 2 ^ 16) ∧ ps.length = w * h := by
  simp only [HostLine.wellFormed, Bool.and_eq_true, decide_eq_true_eq, List.all_eq_true,
    show ∀ n, n ≤ 0xFFFF ↔ n < 2 ^ 16 from fun n => Nat.lt_succ_iff.symm]
  tauto

theorem clear_wellFormed_iff {c : Nat} : (HostLine.clear c).wellFormed = true ↔ c < 2 ^ 16 := by
  simp only [HostLine.wellFormed, decide_eq_true_eq]
  omega

/-- A store to CMD of the number `v` is a store of the word with that value (R136). -/
theorem storeWord_cmd (h : w.toNat = v) : storeWord base cmdOffset v = .write base 32 w := by
  rw [storeWord, cmdOffset, Nat.add_zero, ← h, BitVec.ofNat_toNat, BitVec.setWidth_eq]

/-- Two numbers below 2^16 as a word (R122 to R124). -/
theorem storeWord_pair {hi lo : Nat} (hhi : hi < 2 ^ 16) (hlo : lo < 2 ^ 16) :
    storeWord base cmdOffset (hi * 2 ^ 16 + lo) =
      .write base 32 (pairWord (BitVec.ofNat 16 hi) (BitVec.ofNat 16 lo)) := by
  apply storeWord_cmd
  rw [Machine.pairWord_toNat, BitVec.toNat_ofNat, BitVec.toNat_ofNat]
  omega

theorem storeWord_header_arg16 {op : Byte} {c : Nat} (hc : c < 2 ^ 16) :
    storeWord base cmdOffset (2 ^ 24 * op.toNat + c) = .write base 32 (header op (arg16 (BitVec.ofNat 16 c))) := by
  apply storeWord_cmd
  rw [header_toNat, arg16_toNat, BitVec.toNat_ofNat]
  omega

theorem storeWord_header_argInit {ms o b v : Nat} (hms : ms < 2 ^ 16) (ho : o < 4) (hb : b < 2) (hv : v < 2) :
    storeWord base cmdOffset (0x01000000 + v * 2 ^ 19 + b * 2 ^ 18 + o * 2 ^ 16 + ms) = .write base 32
      (header 1 (argInit (BitVec.ofNat 16 ms) (BitVec.ofNat 2 o) (decide (b = 1)) (decide (v = 1)))) := by
  have decide_toNat : ∀ {n : Nat}, n < 2 → (decide (n = 1)).toNat = n := by decide
  have hop : (1 : Byte).toNat = 1 := rfl
  apply storeWord_cmd
  rw [header_toNat, argInit_toNat, BitVec.toNat_ofNat, BitVec.toNat_ofNat, decide_toNat hb, decide_toNat hv]
  omega

/-- The stores of an image's pixels are those of its data words (R124, R137). -/
theorem imageStores_eq_packPixels (ps : List Nat) (h : ∀ p ∈ ps, p < 2 ^ 16) :
    imageStores base ps = (packPixels (ps.map (BitVec.ofNat 16))).map fun w => Access.write base 32 w := by
  induction ps using imageStores.induct with
  | case1 => rfl
  | case2 p =>
    have hp := storeWord_pair (base := base) (hi := 0) (by decide) (h p (by simp))
    rw [Nat.zero_mul, Nat.zero_add] at hp
    exact congrArg (· :: []) hp
  | case3 p q rest ih =>
    rw [imageStores, storeWord_pair (h q (by simp)) (h p (by simp)), ih fun r hr => h r (by simp [hr])]
    rfl

end

/-- Settles O5: a line whose operands fit stores, number by number, the words of its command's encoding. -/
theorem hostLinesExpandToEncodedWords : Obligations.HostLinesExpandToEncodedWords := by
  intro base stores
  refine ⟨fun ms o b v hms ho hb hv => ?init, fun x y c hx hy hc => ?writePixel,
    fun x y w h ps hx hy hw hh hlen hps => ?drawImage, fun c hc => ?clear, rfl, rfl, rfl, rfl,
    fun ms o b v h => expand_refused (mt init_wellFormed_iff.1 h),
    fun x y c h => expand_refused (mt writePixel_wellFormed_iff.1 h),
    fun x y w h ps hps => expand_refused fun hwf => hps (drawImage_wellFormed_iff.1 hwf).1,
    fun c h => expand_refused (mt clear_wellFormed_iff.1 h),
    fun off v hoff h4 hv => ?registers, fun v hv => ?word, rfl, Machine.statusReg_busy, fun d hd => ?abort⟩
  case init =>
    refine (if_pos (init_wellFormed_iff.2 ⟨hms, ho, hb, hv⟩)).trans ?_
    exact congrArg (fun a => some [a]) (storeWord_header_argInit hms ho hb hv)
  case writePixel =>
    refine (if_pos (writePixel_wellFormed_iff.2 ⟨hx, hy, hc⟩)).trans ?_
    exact congrArg₂ (fun a b => some [a, b]) (storeWord_header_arg16 (op := 2) hc) (storeWord_pair hy hx)
  case drawImage =>
    refine (if_pos (drawImage_wellFormed_iff.2 ⟨⟨hx, hy, hw, hh, hps⟩, hlen⟩)).trans ?_
    dsimp only
    rw [storeWord_pair hy hx, storeWord_pair hh hw, imageStores_eq_packPixels ps hps]
    rfl
  case clear =>
    refine (if_pos (clear_wellFormed_iff.2 hc)).trans ?_
    exact congrArg (fun a => some [a]) (storeWord_header_arg16 (op := 4) hc)
  case registers =>
    exact ⟨if_pos (by simpa [HostLine.wellFormed, hoff, h4] using hv), if_pos (by simp [HostLine.wellFormed, hoff, h4])⟩
  case word => exact if_pos (by simpa [HostLine.wellFormed] using hv)
  case abort => exact if_pos (by simpa [HostLine.wellFormed] using hd)

end Sys2Proof

namespace Sys2Proof.Machine

/-! ## From a command's first word to its start -/

section
variable {hdr xy wh w : Word} {s : State} {a : Assembler} {n : Nat}

/-- `t` is `s` with a command of opcode `op` started (R34, R126). -/
def Started (op : Byte) (s t : State) : Prop :=
  t = { s with asm := t.asm, busy := true, sp := .run op .begin 0 } ∧ t.asm.phase = .none

theorem startCommand_started {op : Byte} (h : opField a.hdr = op) :
    Started op s (startCommand { s with asm := a }) := by
  subst h
  exact ⟨rfl, rfl⟩

/-- A command without operand words starts at its header (R126). -/
theorem acceptWords_header (hp : s.asm.phase = .none) (hops : operandWords (opField hdr) = 0) :
    acceptWords [hdr] s = .next (startCommand { s with asm := { s.asm with hdr := hdr } }) := by
  simp only [acceptWords, accept, hp, andThen_next, acceptHeader, hops]

/-- ASM with its header and `n` operand words still to come (R126). -/
def Assembler.waiting (a : Assembler) (hdr : Word) (opnd : List Word) (n : Nat) : Assembler :=
  { a with phase := .oper, hdr := hdr, opnd := opnd, left := n }

theorem acceptWords_header_waits (ws : List Word) (hp : s.asm.phase = .none)
    (hops : operandWords (opField hdr) = n + 1) :
    acceptWords (hdr :: ws) s = acceptWords ws { s with asm := s.asm.waiting hdr [] (n + 1) } := by
  simp only [acceptWords, accept, hp, andThen_next, acceptHeader, hops]
  rfl

theorem acceptWords_operand_waits (ws opnd : List Word) :
    acceptWords (w :: ws) { s with asm := a.waiting hdr opnd (n + 2) } =
      acceptWords ws { s with asm := a.waiting hdr (opnd ++ [w]) (n + 1) } := rfl

/-- WRITE_PIXEL starts at its operand word (R126). -/
theorem acceptWords_writePixel (hp : s.asm.phase = .none) (h2 : opField hdr = 2) :
    acceptWords [hdr, xy] s = .next (startCommand { s with asm := s.asm.waiting hdr [xy] 0 }) := by
  rw [acceptWords_header_waits (n := 0) _ hp (by rw [h2]; rfl)]
  exact congrArg Host.Outcome.next (if_pos h2)

/-- ASM with the words of an image before its data words (R126). -/
def imageAsm (hdr xy wh : Word) (verdict : Code) : Assembler :=
  { phase := .data, hdr := hdr, opnd := [xy, wh], left := dataWords (loHalf wh) (hiHalf wh), k := 0,
    verdict := verdict }

/-- An image's WH word finds the verdict; then the data words follow, or the command starts if it has none (R126). -/
theorem acceptWords_drawImage (hp : s.asm.phase = .none) (h3 : opField hdr = 3) :
    ∃ t, acceptWords [hdr, xy, wh] s = .next t ∧ asmWords t = [hdr, xy, wh] ∧
      t.asm.verdict = verdictOf [hdr, xy, wh] s ∧ t.asm.k = 0 ∧ t.asm.left = dataWords (loHalf wh) (hiHalf wh) ∧
      if dataWords (loHalf wh) (hiHalf wh) = 0 then Started 3 s t
      else t = { s with asm := t.asm } ∧ t.asm.phase = .data := by
  have h2 : opField hdr ≠ 2 := by simp [h3]
  have haccept : acceptWords [hdr, xy, wh] s =
      .next (let t := { s with asm := imageAsm hdr xy wh (verdictOf [hdr, xy, wh] s) }
        if dataWords (loHalf wh) (hiHalf wh) = 0 then startCommand t else t) := by
    rw [acceptWords_header_waits (n := 1) _ hp (by rw [h3]; rfl), acceptWords_operand_waits]
    exact congrArg Host.Outcome.next ((if_neg h2).trans (ite_congr rfl (fun _ => rfl) fun _ => rfl))
  refine ⟨_, haccept, ?_⟩
  by_cases h0 : dataWords (loHalf wh) (hiHalf wh) = 0
  · rw [if_pos h0, if_pos h0]
    exact ⟨rfl, rfl, rfl, rfl, startCommand_started h3⟩
  · rw [if_neg h0, if_neg h0]
    exact ⟨rfl, rfl, rfl, rfl, rfl, rfl⟩

theorem dataWords_eq_zero_iff {w h : Half} : dataWords w h = 0 ↔ w.toNat * h.toNat = 0 := by
  unfold dataWords ceilDiv
  omega

/-- The number of data words, from the WH word (R125). -/
theorem dataWords_halves (wh : Word) :
    dataWords (loHalf wh) (hiHalf wh) = (wh.toNat % 2 ^ 16 * (wh.toNat / 2 ^ 16) + 1) / 2 := by
  rw [dataWords, loHalf_toNat, hiHalf_toNat]
  rfl

/-- A set must-be-zero bit of an image's header finds its verdict (R130, R326). -/
theorem verdictOf_image_illegal {ws : List Word} (h3 : opField hdr = 3) (hmask : hdr &&& 0x00FFFFFF ≠ 0) :
    verdictOf (hdr :: ws) s = if s.state = .closed then .closedError else .illegalCommand := by
  have hset : rsvzClear hdr = false := rsvzClear_of_mask (.inr (.inr ⟨by simp [h3], hmask⟩))
  rw [verdictOf, decode_setBits h3 rfl hset]

/-- A command of one word starts at it, decoded as it was encoded (R125, R126). -/
theorem encode_one_word_starts {i : Instr} (henc : encode i = [hdr]) (hp : s.asm.phase = .none) :
    ∃ t, acceptWords (encode i) s = .next t ∧ (∃ rest, decode (asmWords t) = .ok (i, rest)) ∧ Started i.opcode s t := by
  obtain ⟨-, hdr', operands, henc', hop, hlen, -⟩ := encodedForm i
  obtain ⟨rfl, rfl⟩ := List.cons.inj (henc.symm.trans henc')
  have hdec := decodeEncodeRoundTrip i s.asm.opnd
  rw [henc] at hdec ⊢
  exact ⟨_, acceptWords_header hp (by rw [hop]; exact hlen.symm), ⟨_, hdec⟩, startCommand_started hop⟩

end

/-- Settles O15: by the number of operand words a command's encoding, or a header's opcode, has. -/
theorem acceptedWordsStartTheCommand : Obligations.AcceptedWordsStartTheCommand := by
  refine ⟨fun i s hp => ?encodings, fun hdr xy wh s hp => ?headers⟩
  case encodings =>
    cases i with
    | writePixel color x y =>
      exact ⟨_, acceptWords_writePixel hp (Laws.opField_header _ _),
        ⟨[], decodeEncodeRoundTrip (.writePixel color x y) []⟩, startCommand_started (Laws.opField_header _ _)⟩
    | drawImage x y w h =>
      obtain ⟨t, ht, hwords, hverdict, hk, hleft, hthen⟩ :=
        acceptWords_drawImage (xy := pairWord y x) (wh := pairWord h w) hp (Laws.opField_header 3 0)
      have hdec : decode [header 3 0, pairWord y x, pairWord h w] = .ok (.drawImage x y w h, []) :=
        decodeEncodeRoundTrip (.drawImage x y w h) []
      rw [verdictOf, hdec] at hverdict
      rw [loHalf_pairWord, hiHalf_pairWord] at hleft
      simp only [loHalf_pairWord, hiHalf_pairWord, dataWords_eq_zero_iff] at hthen
      exact ⟨t, ht, ⟨[], hwords ▸ hdec⟩, hverdict, hk, hleft, hthen⟩
    | init ms orient bgr inv => exact encode_one_word_starts rfl hp
    | clear color => exact encode_one_word_starts rfl hp
    | flush => exact encode_one_word_starts rfl hp
    | sleep => exact encode_one_word_starts rfl hp
    | wake => exact encode_one_word_starts rfl hp
    | close => exact encode_one_word_starts rfl hp
  case headers =>
    intro op pixels starts waits
    have hstarts : ∀ a : Assembler, a.hdr = hdr → starts (startCommand { s with asm := a }) := by
      rintro a rfl
      obtain ⟨hrest, hphase⟩ := startCommand_started (s := s) (opField_eq_ofNat a.hdr)
      exact ⟨rfl, hphase, hrest⟩
    have hop : ∀ {b : Byte}, op = b.toNat → opField hdr = b := opField_eq_iff.2
    refine ⟨fun h2 h3 => ?noOperand, fun h2 => ?oneOperand, fun h3 => ?twoOperands⟩
    case noOperand =>
      have hops : operandWords (opField hdr) = 0 := by
        rcases operandWords_cases (opField hdr) with ⟨h, -⟩ | ⟨-, h⟩ | ⟨-, h⟩
        · exact h
        · exact absurd (opField_eq_iff.1 h) h2
        · exact absurd (opField_eq_iff.1 h) h3
      exact ⟨_, acceptWords_header hp hops, hstarts _ rfl⟩
    case oneOperand =>
      have h2 : opField hdr = 2 := hop h2
      exact ⟨⟨_, acceptWords_header_waits [] hp (n := 0) (by rw [h2]; rfl), ⟨rfl, rfl⟩, rfl, rfl⟩,
        _, acceptWords_writePixel hp h2, hstarts _ rfl, rfl⟩
    case twoOperands =>
      have h3 : opField hdr = 3 := hop h3
      have hwaits := fun ws => acceptWords_header_waits ws hp (n := 1) (by rw [h3]; rfl)
      refine ⟨⟨_, hwaits [], ⟨rfl, rfl⟩, rfl, rfl⟩, ⟨_, hwaits [xy], ⟨rfl, rfl⟩, rfl, rfl⟩, ?_⟩
      obtain ⟨t, ht, hwords, hverdict, hk, hleft, hthen⟩ := acceptWords_drawImage (xy := xy) (wh := wh) hp h3
      obtain ⟨hhdr, hopnd⟩ := List.cons.inj hwords
      have hpixels : dataWords (loHalf wh) (hiHalf wh) = 0 ↔ pixels = 0 := by
        rw [dataWords_eq_zero_iff, loHalf_toNat, hiHalf_toNat]
      refine ⟨t, ht, hopnd, hk, hleft.trans (dataWords_halves wh),
        fun hmask => hverdict.trans (verdictOf_image_illegal h3 hmask), ?_⟩
      simp only [hpixels] at hthen
      split_ifs at hthen ⊢ with h0
      · rw [← h3, opField_eq_ofNat] at hthen
        exact ⟨hhdr, hthen.2, hthen.1⟩
      · exact ⟨⟨hhdr, hthen.1⟩, hthen.2⟩

/-! ## The data words of a rejected image -/

section
variable {s : State}

/-- A pixel of a rejected image is at most counted (R250, R252). -/
theorem drawPixel_rejected (p : Half) (hv : s.asm.verdict ≠ .ok) :
    ∃ k, drawPixel p s = .next { s with asm := { s.asm with k := k } } := by
  unfold drawPixel
  split_ifs
  · exact ⟨s.asm.k + 1, rfl⟩
  · exact ⟨s.asm.k, rfl⟩

theorem drawData_rejected (w : Word) (hv : s.asm.verdict ≠ .ok) :
    ∃ k, drawData w s = .next { s with asm := { s.asm with k := k } } := by
  obtain ⟨k, hk⟩ := drawPixel_rejected (loHalf w) hv
  obtain ⟨k', hk'⟩ := drawPixel_rejected (s := { s with asm := { s.asm with k := k } }) (hiHalf w) hv
  exact ⟨k', by rw [drawData, hk, andThen_next, hk']⟩

/-- A data word of a rejected image: one word fewer is left, and the last one starts the command (R126, R250). -/
theorem accept_rejected (w : Word) (hp : s.asm.phase = .data) (hv : s.asm.verdict ≠ .ok) :
    ∃ k, let t := { s with asm := { s.asm with k := k, left := s.asm.left - 1 } }
      accept w s = .next (if s.asm.left - 1 = 0 then startCommand t else t) := by
  obtain ⟨k, hk⟩ := drawData_rejected w hv
  refine ⟨k, ?_⟩
  simp only [accept, hp, acceptData, hk, andThen_next]

/-- All the data words that are left are consumed, and then the command starts (R250). -/
theorem acceptWords_rejected (ws : List Word) (hp : s.asm.phase = .data) (hv : s.asm.verdict ≠ .ok)
    (hpos : 0 < s.asm.left) (hlen : ws.length = s.asm.left) :
    ∃ k, acceptWords ws s = .next (startCommand { s with asm := { s.asm with k := k, left := 0 } }) := by
  induction ws generalizing s with
  | nil => exact absurd hlen hpos.ne
  | cons w ws ih =>
    rw [List.length_cons] at hlen
    obtain ⟨k, hk⟩ := accept_rejected w hp hv
    rw [acceptWords, hk, andThen_next]
    by_cases hlast : s.asm.left - 1 = 0
    · obtain rfl : ws = [] := List.length_eq_zero_iff.1 (by omega)
      exact ⟨k, by rw [if_pos hlast, hlast]; rfl⟩
    · rw [if_neg hlast]
      exact ih hp hv (Nat.pos_of_ne_zero hlast) (by simp only; omega)

end

/-- Settles O17: the words are counted down to the last, which starts the command. -/
theorem rejectedImageIsConsumed : Obligations.RejectedImageIsConsumed := by
  intro s ws hp hv hpos hlen
  obtain ⟨k, hk⟩ := acceptWords_rejected ws hp hv hpos hlen
  exact ⟨_, hk, rfl, rfl, rfl, rfl⟩

end Sys2Proof.Machine

/-!
PROOFS. The statements of 40_line_control step by step: INIT's pulse, delays and table (O25, O27), FLUSH (O28), SLEEP
and WAKE (O30). Each shared operation's step is told once as a record update; a statement's clause is its command's arm and
that update.
-/

namespace Sys2Proof.Machine

/-! ## The shared operations as record updates -/

section
variable {s : State} {op : Byte} {st next : SeqStep} {n k : Nat} {ms : Half} {after : State → Out}

theorem deselectStep_of_selected (hx : s.xfer.pending = false) (hsp : s.sp = .run op st n) (hcs : s.csN = false) :
    deselectStep next s =
      .next { s with csN := true, trace := s.trace ++ [.cs true], sp := .run op next 0 } := by
  rw [deselectStep, lineOp_ready _ hx, goto_of_run (s := deselectLine s) hsp, deselectLine, hcs]
  rfl

theorem selectStep_of_deselected (hx : s.xfer.pending = false) (hcs : s.csN = true) :
    andThen (lineOp selectLine s) after = after { s with csN := false, trace := s.trace ++ [.cs false] } := by
  rw [lineOp_ready _ hx, andThen_next, selectLine, hcs, if_pos rfl]

theorem resetLowLine_of_high (h : s.rstN = true) :
    resetLowLine s = { s with rstN := false, trace := s.trace ++ [.rst false] } := by
  rw [resetLowLine, h, if_pos rfl]

theorem resetHighLine_of_low (h : s.rstN = false) :
    resetHighLine s = { s with rstN := true, trace := s.trace ++ [.rst true] } := by
  rw [resetHighLine, h, if_neg Bool.false_ne_true]

theorem releaseLock_of_exclusive (hbus : s.params.sharedBus = false) : releaseLock s = { s with locked := false } := by
  simp only [releaseLock, hbus, Bool.and_false, Bool.not_false, Bool.and_true, Bool.false_eq_true, if_false,
    List.append_nil]

theorem releaseLock_of_shared (hlk : s.locked = true) (hbus : s.params.sharedBus = true) :
    releaseLock s = { s with locked := false, lockReq := false, trace := s.trace ++ [.unlock] } := by
  simp only [releaseLock, hlk, hbus, Bool.and_self, Bool.not_true, Bool.and_false, if_true]

theorem acquireStep_of_exclusive (hbus : s.params.sharedBus = false) (hr : s.reply = none)
    (hsp : s.sp = .run op st n) : acquireStep (fun t => .next (goto next k t)) s =
      .next { s with locked := true, sp := .run op next k } := by
  simp only [acquireStep, hbus, Bool.false_eq_true, if_false, takeLock, List.append_nil, goto, hsp, moveTo_run, hr]

theorem acquireStep_of_ungranted (hbus : s.params.sharedBus = true) (hr : s.reply = none) :
    acquireStep after s = .next { s with lockReq := true } := by
  simp only [acquireStep, hbus, if_true, hr]

theorem acquireStep_of_granted {a : Answer} (hbus : s.params.sharedBus = true) (hr : s.reply = some a)
    (hsp : s.sp = .run op st n) : acquireStep (fun t => .next (goto next k t)) s =
      .next { s with reply := none, locked := true, trace := s.trace ++ [.lock], sp := .run op next k } := by
  simp only [acquireStep, hbus, if_true, hr, takeLock, goto, hsp, moveTo_run]

theorem delayStep_of_unanswered (h0 : ms ≠ 0) (hr : s.reply = none) : delayStep ms after s =
    .next { s with delay := some ms, trace := s.trace ++ [.wait ms] } := by
  simp only [delayStep, if_neg h0, hr, requestDelay]

theorem delayStep_of_answered {a : Answer} (h0 : ms ≠ 0) (hr : s.reply = some a) :
    delayStep ms after s = after { s with reply := none } := by
  simp only [delayStep, if_neg h0, hr]

/-- A group's command byte fits a transfer buffer of one byte (R84, R180). -/
theorem groupStep_cmdByte_requests_one {g : Group} {cmd : Byte} {params : List Byte} (hx : s.xfer.pending = false)
    (hr : s.reply = none) (hfit : 1 ≤ s.params.tbufBytes) :
    Requests [cmd] s (groupStep g .cmdByte k cmd params after s) := by
  rw [groupStep, transferStep_none hr]
  exact requestTransfer_requests hx Nat.one_pos hfit

end

/-! ## INIT -/

section
variable {resetMs : Half} {o : BitVec 2} {b v : Bool} {s : State} {op : Byte} {n : Nat}

theorem exec_init_begin (h : s.sp = .run op .begin n) :
    exec (.init resetMs o b v) s = checked (.init resetMs o b v) (initBegin o b v) s := by simp only [exec, execInit, h]

theorem exec_init_resetLow (h : s.sp = .run op .resetLow n) : exec (.init resetMs o b v) s =
    andThen (lineOp resetLowLine s) (enterDelay resetMs .resetHold 0 fun t => .next (goto .resetHigh 0 t)) := by
  simp only [exec, execInit, h]

theorem exec_init_resetHold (h : s.sp = .run op .resetHold n) : exec (.init resetMs o b v) s =
    delayStep resetMs (fun t => .next (goto .resetHigh 0 t)) s := by simp only [exec, execInit, h]

theorem exec_init_resetHigh (h : s.sp = .run op .resetHigh n) : exec (.init resetMs o b v) s =
    andThen (lineOp resetHighLine s) (enterDelay s.params.tResetRecovery .recovery 0 initOpen) := by
  simp only [exec, execInit, h]

theorem exec_init_recovery (h : s.sp = .run op .recovery n) :
    exec (.init resetMs o b v) s = delayStep s.params.tResetRecovery initOpen s := by simp only [exec, execInit, h]

theorem exec_init_acquire (h : s.sp = .run op .acquire n) :
    exec (.init resetMs o b v) s = acquireStep (fun t => .next (goto .select 0 t)) s := by simp only [exec, execInit, h]

theorem exec_init_select (h : s.sp = .run op .select n) :
    exec (.init resetMs o b v) s = andThen (lineOp selectLine s) (initEntryAt 0) := by simp only [exec, execInit, h]

/-- What follows the group of entry `n` of the init table: the entry's delay, then the next entry (R204). -/
def initEntryEnd (n : Nat) (e : InitEntry) : State → Out :=
  enterDelay e.delayMs (.group .initEntry .settle) n (initEntryAt (n + 1))

theorem exec_init_entry {m : GroupStep} {e : InitEntry} (h : s.sp = .run op (.group .initEntry m) n)
    (he : s.params.initTable[n]? = some e) (hm : m ≠ .settle) : exec (.init resetMs o b v) s =
      groupStep .initEntry m n (resolveCmd s e.cmd) (e.params.map (resolveParam s)) (initEntryEnd n e) s := by
  simp only [exec, execInit, h, initGroup, he]
  cases m with
  | settle => exact absurd rfl hm
  | _ => rfl

theorem exec_init_settle {e : InitEntry} (h : s.sp = .run op (.group .initEntry .settle) n)
    (he : s.params.initTable[n]? = some e) :
    exec (.init resetMs o b v) s = delayStep e.delayMs (initEntryAt (n + 1)) s := by
  simp only [exec, execInit, h, initGroup, he]

theorem exec_init_deselect (h : s.sp = .run op .deselect n) :
    exec (.init resetMs o b v) s = deselectStep .release s := by simp only [exec, execInit, h]

theorem exec_init_release (h : s.sp = .run op .release n) : exec (.init resetMs o b v) s =
    enterDelay s.params.tPostInit .postDelay 0 (finish .ready .ok) (releaseLock s) := by
  simp only [exec, execInit, h, releaseStep]

theorem exec_init_postDelay (h : s.sp = .run op .postDelay n) :
    exec (.init resetMs o b v) s = delayStep s.params.tPostInit (finish .ready .ok) s := by
  simp only [exec, execInit, h]

theorem exec_init_abortDeselect (h : s.sp = .run op .abortDeselect n) :
    exec (.init resetMs o b v) s = deselectStep .abortRelease s := by simp only [exec, execInit, h]

theorem exec_init_abortRelease (h : s.sp = .run op .abortRelease n) :
    exec (.init resetMs o b v) s = finish .uninit .initError (releaseLock s) := by
  simp only [exec, execInit, h, releaseStep]

theorem check_init_ok (h : s.state = .uninit) : check (.init resetMs o b v) s = .ok := by
  simp [check, h, needsInit, validIn, inBounds]

end

/-- Settles O25: INIT's arms, each with the update of its line operation, its delay or its end. -/
theorem initStepByStep : Obligations.InitStepByStep := by
  intro ms o b v s op n hx
  refine ⟨fun hsp hst => ?begin, fun hsp hrst => ?resetLow,
    fun hsp h0 => ⟨fun hr => ?resetHold, fun hr => ?resetHeld⟩, fun hsp hrst => ?resetHigh,
    fun hsp h0 => ⟨fun hr => ?recovery, fun hr => ?recovered⟩, fun hsp hcs => ?deselect,
    fun hsp h0 => ⟨fun hr => ?postDelay, fun hr => ?ready⟩, fun hsp hcs => ?abortDeselect,
    fun hsp hlk hbus => ?failExclusive, fun hsp hlk hbus hreq => ?failShared⟩
  case begin =>
    rw [exec_init_begin hsp, checked_ok (check_init_ok hst), initBegin, goto, hsp]
    rfl
  case resetLow =>
    rw [exec_init_resetLow hsp, lineOp_ready _ hx, andThen_next, resetLowLine_of_high hrst, enterDelay]
    split_ifs <;> simp only [goto, hsp, moveTo_run]
  case resetHold => rw [exec_init_resetHold hsp, delayStep_of_unanswered h0 hr]
  case resetHeld => rw [exec_init_resetHold hsp, delayStep_of_answered h0 hr, goto, hsp, moveTo_run]
  case resetHigh =>
    rw [exec_init_resetHigh hsp, lineOp_ready _ hx, andThen_next, resetHighLine_of_low hrst, enterDelay]
    split_ifs <;> simp only [initOpen, goto, hsp, moveTo_run]
  case recovery => rw [exec_init_recovery hsp, delayStep_of_unanswered h0 hr]
  case recovered =>
    rw [exec_init_recovery hsp, delayStep_of_answered h0 hr, initOpen, goto, hsp]
    rfl
  case deselect => rw [exec_init_deselect hsp, deselectStep_of_selected hx hsp hcs]
  case postDelay => rw [exec_init_postDelay hsp, delayStep_of_unanswered h0 hr]
  case ready => rw [exec_init_postDelay hsp, delayStep_of_answered h0 hr, finish]
  case abortDeselect => rw [exec_init_abortDeselect hsp, deselectStep_of_selected hx hsp hcs]
  case failExclusive => rw [exec_init_abortRelease hsp, releaseLock_of_exclusive hbus, finish]
  case failShared => rw [exec_init_abortRelease hsp, releaseLock_of_shared hlk hbus, finish]

/-! ## INIT's table -/

/-- Where INIT goes at entry `k` of its table: to the entry, or past the last to the end of the frame (R204). -/
def initEntryGoal (s : State) (k : Nat) : SeqStep × Nat :=
  if k < s.params.initTable.length then (.group .initEntry .cmdMode, k) else (.deselect, 0)

/-- Where INIT goes after the group of entry `n`: to its delay, or past a delay of 0 to the next entry (R174, R204). -/
def initSettleGoal (s : State) (n : Nat) (e : InitEntry) : SeqStep × Nat :=
  if e.delayMs = 0 then initEntryGoal s (n + 1) else (.group .initEntry .settle, n)

theorem initEntryAt_eq_goto (k : Nat) (s : State) :
    initEntryAt k s = .next (goto (initEntryGoal s k).1 (initEntryGoal s k).2 s) := by
  unfold initEntryAt initEntryGoal
  split_ifs <;> rfl

theorem initEntryEnd_eq_goto (n : Nat) (e : InitEntry) (s : State) :
    initEntryEnd n e s = .next (goto (initSettleGoal s n e).1 (initSettleGoal s n e).2 s) := by
  unfold initEntryEnd enterDelay initSettleGoal
  split_ifs
  · exact initEntryAt_eq_goto (n + 1) s
  · rfl

/-- Settles O27: the frame's opening and end, and an entry's group and delay; where each goes next is `initEntryGoal`
and `initSettleGoal`. -/
theorem initTableStepByStep : Obligations.InitTableStepByStep := by
  intro ms o b v s op n hx i entry
  have hentry (k : Nat) : entry k = .run op (initEntryGoal s k).1 (initEntryGoal s k).2 := by
    simp only [entry, initEntryGoal]
    split_ifs <;> rfl
  refine ⟨fun hsp hbus hr => ?exclusive, fun hsp hbus => ⟨fun hr => ?ask, fun hr => ?granted⟩, fun hsp hcs => ?select,
    fun e he => ?entry, fun hsp hlk hbus => ?releaseExclusive, fun hsp hlk hbus hreq => ?releaseShared⟩
  case exclusive => exact (exec_init_acquire hsp).trans (acquireStep_of_exclusive hbus hr hsp)
  case ask => exact (exec_init_acquire hsp).trans (acquireStep_of_ungranted hbus hr)
  case granted => exact (exec_init_acquire hsp).trans (acquireStep_of_granted hbus hr hsp)
  case select =>
    rw [exec_init_select hsp, selectStep_of_deselected hx hcs, initEntryAt_eq_goto, hentry, goto, hsp]
    rfl
  case entry =>
    intro settled
    have hsettled : settled = .run op (initSettleGoal s n e).1 (initSettleGoal s n e).2 := by
      simp only [settled, initSettleGoal, hentry]
      split_ifs <;> rfl
    have harm (m : GroupStep) (hm : m ≠ .settle) (hsp : s.sp = .run op (.group .initEntry m) n) :=
      exec_init_entry (resetMs := ms) (o := o) (b := b) (v := v) hsp he hm
    have hend {st : SeqStep} (hsp : s.sp = .run op st n) :
        initEntryEnd n e { s with reply := none } = .next { s with reply := none, sp := settled } := by
      rw [initEntryEnd_eq_goto, goto_of_run (s := { s with reply := none }) hsp, hsettled]
      rfl
    refine ⟨fun hsp => ?mode, fun hsp hfit => ⟨fun hr => ?request, fun hr => ?answered, fun hr => ?failed⟩,
      fun hsp => ?data,
      fun hsp hpos hfit => ⟨fun hr => ?requestParams, fun hr => ?answeredParams, fun hr => ?failedParams⟩,
      fun hsp h0 => ⟨fun hr => ?wait, fun hr => ?waited⟩⟩
    case mode => exact (harm _ (by simp) hsp).trans (groupStep_cmdMode hx hsp)
    case request =>
      rw [harm _ (by simp) hsp]
      exact groupStep_cmdByte_requests_one hx hr hfit
    case answered =>
      rw [harm _ (by simp) hsp, groupStep, transferStep_ok hr, hend hsp,
        goto_of_run (s := { s with reply := none }) hsp]
      simp only [List.map_eq_nil_iff]
      split_ifs <;> rfl
    case failed => exact (harm _ (by simp) hsp).trans (groupStep_cmdByte_err hsp hr)
    case data => exact (harm _ (by simp) hsp).trans (groupStep_dataMode hx hsp)
    case requestParams =>
      rw [harm _ (by simp) hsp]
      exact groupStep_params_requests hx hr (by rwa [List.length_map]) (by rwa [List.length_map])
    case answeredParams => rw [harm _ (by simp) hsp, groupStep, transferStep_ok hr, hend hsp]
    case failedParams => exact (harm _ (by simp) hsp).trans (groupStep_params_err hsp hr)
    case wait => exact (exec_init_settle hsp he).trans (delayStep_of_unanswered h0 hr)
    case waited =>
      rw [exec_init_settle hsp he, delayStep_of_answered h0 hr, initEntryAt_eq_goto, hentry, goto, hsp]
      rfl
  case releaseExclusive =>
    rw [exec_init_release hsp, releaseLock_of_exclusive hbus, enterDelay, goto, hsp]
    split_ifs <;> rfl
  case releaseShared =>
    rw [exec_init_release hsp, releaseLock_of_shared hlk hbus, enterDelay, goto, hsp]
    split_ifs <;> rfl

/-! ## FLUSH -/

section
variable {s : State} {op : Byte} {n : Nat}

theorem exec_flush_abortDeselect (h : s.sp = .run op .abortDeselect n) :
    exec .flush s = deselectStep .abortRelease s := by simp only [exec, execFlush, h]

theorem exec_flush_abortRelease (h : s.sp = .run op .abortRelease n) :
    exec .flush s = finish .ready .flushError (releaseLock s) := by simp only [exec, execFlush, h, releaseStep]

theorem check_flush_ok (h : s.state = .ready) : check .flush s = .ok := by
  simp [check, h, needsInit, validIn, inBounds]

/-- Where FLUSH goes at chunk `k`: to the chunk, or past the last to the end of the frame (R213). -/
def flushChunkGoal (s : State) (k : Nat) : SeqStep × Nat := if k < chunkCount s then (.chunk, k) else (.deselect, 0)

theorem flushChunkAt_eq_goto (k : Nat) (s : State) :
    flushChunkAt k s = .next (goto (flushChunkGoal s k).1 (flushChunkGoal s k).2 s) := by
  unfold flushChunkAt flushChunkGoal
  split_ifs <;> rfl

theorem pixelModeStep_eq_goto (hx : s.xfer.pending = false) (hp : s.params.wellFormed = true) : pixelModeStep s =
    .next (goto .chunk 0 (dataModeLine { s with chunksTotal := sat16 (chunkCount s) })) := by
  have hpos := chunkCount_pos (s := dataModeLine { s with chunksTotal := sat16 (chunkCount s) }) hp
  rw [pixelModeStep, lineOp_ready _ (s := { s with chunksTotal := sat16 (chunkCount s) }) hx, andThen_next,
    flushChunkAt_eq_goto, flushChunkGoal, if_pos hpos]

/-- A chunk that has been answered is a transfer step (R213). -/
theorem chunkStep_of_answered {a : Answer} {k : Nat} (hin : s.dw.inPanel s.params = true) (hr : s.reply = some a) :
    chunkStep k s = transferStep (chunkBytes s k) (flushChunkAt (k + 1)) s := by
  simp only [chunkStep, if_pos hin, hr]

/-- A chunk without an answer is counted and requested (R213). -/
theorem chunkStep_of_unanswered {k : Nat} (hin : s.dw.inPanel s.params = true) (hr : s.reply = none) :
    chunkStep k s = requestTransfer (chunkBytes s k) { s with chunksIssued := sat16 (k + 1) } := by
  simp only [chunkStep, if_pos hin, hr]

end

/-- Settles O28: FLUSH's arms; a chunk fits the transfer buffer by the plan of R212. -/
theorem flushStepByStep : Obligations.FlushStepByStep := by
  intro s op n hx
  refine ⟨fun hsp hst hv => ?begin, fun hsp hst hv => ?empty, fun hsp hr => ?ramwr, fun hsp hin hp => ?pixels,
    fun hsp hin hp hn => ⟨fun hr => ?chunk, fun hr => ?chunkOk, fun hr => ?chunkErr⟩, fun hsp hlk hbus => ?endExclusive,
    fun hsp hlk hbus hreq => ?endShared, fun hsp hcs => ?deselect, fun hsp hcs => ?abortDeselect,
    fun hsp hlk hbus => ?failExclusive, fun hsp hlk hbus hreq => ?failShared⟩
  case begin =>
    rw [exec_flush_begin hsp, checked_ok (check_flush_ok hst), flushBegin, if_pos hv, goto, hsp]
    rfl
  case empty =>
    rw [exec_flush_begin hsp, checked_ok (check_flush_ok hst), flushBegin, if_neg (ne_true_of_eq_false hv)]
  case ramwr => exact (exec_flush_ramwr hsp).trans (groupStep_cmdByte_last hsp hr)
  case pixels =>
    rw [exec_flush_pixelMode hsp, pixelModeStep_eq_goto hx hp, goto, dataModeLine, hsp]
    rfl
  case chunk =>
    obtain ⟨hpos, hfit⟩ := chunkBytes_fit hp hn
    rw [exec_flush_chunk hsp, chunkStep_of_unanswered hin hr]
    exact requestTransfer_requests (s := { s with chunksIssued := sat16 (n + 1) }) hx hpos hfit
  case chunkOk =>
    have hcount : chunkCount { s with reply := none } = chunkCount s := chunkCount_congr rfl rfl
    rw [exec_flush_chunk hsp, chunkStep_of_answered hin hr, transferStep_ok hr, flushChunkAt_eq_goto,
      goto_of_run (s := { s with reply := none }) hsp, flushChunkGoal, hcount]
    split_ifs <;> rfl
  case chunkErr => rw [exec_flush_chunk hsp, chunkStep_of_answered hin hr, transferStep_aborts hsp hr]
  case endExclusive => rw [exec_flush_release hsp, flushEnd, releaseLock_of_exclusive hbus]
  case endShared => rw [exec_flush_release hsp, flushEnd, releaseLock_of_shared hlk hbus]
  case deselect => rw [exec_flush_deselect hsp, deselectStep_of_selected hx hsp hcs]
  case abortDeselect => rw [exec_flush_abortDeselect hsp, deselectStep_of_selected hx hsp hcs]
  case failExclusive => rw [exec_flush_abortRelease hsp, releaseLock_of_exclusive hbus, finish]
  case failShared => rw [exec_flush_abortRelease hsp, releaseLock_of_shared hlk hbus, finish]

/-! ## SLEEP and WAKE -/

/-- The two commands that send one byte in a frame, with what each sends, waits, needs and leaves (R289, R294). -/
def PowerCommand (s : State) (i : Instr) (g : Group) (cmd : Byte) (ms : Half) (before after : DriverState) : Prop :=
  i = .sleep ∧ g = .slpin ∧ cmd = s.params.bytes.slpin ∧ ms = s.params.tSleepIn ∧ before = .ready ∧ after = .sleeping ∨
    i = .wake ∧ g = .slpout ∧ cmd = s.params.bytes.slpout ∧ ms = s.params.tSleepOut ∧ before = .sleeping ∧
      after = .ready

section
variable {s : State} {i : Instr} {g : Group} {cmd : Byte} {ms : Half} {before after : DriverState} {op : Byte} {n : Nat}

theorem PowerCommand.exec_begin (hi : PowerCommand s i g cmd ms before after) (h : s.sp = .run op .begin n)
    (hst : s.state = before) : exec i s = .next (goto .acquire 0 s) := by
  rcases hi with ⟨rfl, rfl, rfl, rfl, rfl, rfl⟩ | ⟨rfl, rfl, rfl, rfl, rfl, rfl⟩
  · simp only [exec, execSleep, h]
    exact checked_ok (by simp [check, hst, needsInit, validIn, inBounds])
  · simp only [exec, execWake, h]
    exact checked_ok (by simp [check, hst, needsInit, validIn, inBounds])

theorem PowerCommand.exec_acquire (hi : PowerCommand s i g cmd ms before after) (h : s.sp = .run op .acquire n) :
    exec i s = acquireStep (fun t => .next (goto .select 0 t)) s := by
  rcases hi with ⟨rfl, -⟩ | ⟨rfl, -⟩ <;> simp only [exec, execSleep, execWake, h]

theorem PowerCommand.exec_select (hi : PowerCommand s i g cmd ms before after) (h : s.sp = .run op .select n) :
    exec i s = andThen (lineOp selectLine s) fun t => .next (goto (.group g .cmdMode) 0 t) := by
  rcases hi with ⟨rfl, rfl, -⟩ | ⟨rfl, rfl, -⟩ <;> simp only [exec, execSleep, execWake, h]

theorem PowerCommand.exec_group {m : GroupStep} (hi : PowerCommand s i g cmd ms before after)
    (h : s.sp = .run op (.group g m) n) :
    exec i s = groupStep g m 0 cmd [] (fun t => .next (goto .deselect 0 t)) s := by
  rcases hi with ⟨rfl, rfl, rfl, -⟩ | ⟨rfl, rfl, rfl, -⟩ <;> simp only [exec, execSleep, execWake, h]

theorem PowerCommand.exec_deselect (hi : PowerCommand s i g cmd ms before after) (h : s.sp = .run op .deselect n) :
    exec i s = deselectStep .release s := by
  rcases hi with ⟨rfl, -⟩ | ⟨rfl, -⟩ <;> simp only [exec, execSleep, execWake, h]

theorem PowerCommand.exec_release (hi : PowerCommand s i g cmd ms before after) (h : s.sp = .run op .release n) :
    exec i s = enterDelay ms .postDelay 0 (finish after .ok) (releaseLock s) := by
  rcases hi with ⟨rfl, -, -, rfl, -, rfl⟩ | ⟨rfl, -, -, rfl, -, rfl⟩ <;>
    simp only [exec, execSleep, execWake, h, releaseStep]

theorem PowerCommand.exec_postDelay (hi : PowerCommand s i g cmd ms before after) (h : s.sp = .run op .postDelay n) :
    exec i s = delayStep ms (finish after .ok) s := by
  rcases hi with ⟨rfl, -, -, rfl, -, rfl⟩ | ⟨rfl, -, -, rfl, -, rfl⟩ <;> simp only [exec, execSleep, execWake, h]

theorem PowerCommand.exec_abortDeselect (hi : PowerCommand s i g cmd ms before after)
    (h : s.sp = .run op .abortDeselect n) : exec i s = deselectStep .abortRelease s := by
  rcases hi with ⟨rfl, -⟩ | ⟨rfl, -⟩ <;> simp only [exec, execSleep, execWake, h]

theorem PowerCommand.exec_abortRelease (hi : PowerCommand s i g cmd ms before after)
    (h : s.sp = .run op .abortRelease n) : exec i s = .next (complete .transportError (releaseLock s)) := by
  rcases hi with ⟨rfl, -⟩ | ⟨rfl, -⟩ <;> simp only [exec, execSleep, execWake, h, releaseStep]

end

/-- Settles O30: both commands by one account of their arms. -/
theorem sleepWakeStepByStep : Obligations.SleepWakeStepByStep := by
  intro s op n hx i g cmd ms before after hcmd
  have hi : PowerCommand s i g cmd ms before after := hcmd
  refine ⟨fun hsp hst => ?begin, fun hsp hbus hr => ?exclusive, fun hsp hbus => ⟨fun hr => ?ask, fun hr => ?granted⟩,
    fun hsp hcs => ?select, fun hsp => ?mode,
    fun hsp hfit => ⟨fun hr => ?request, fun hr => ?answered, fun hr => ?failed⟩,
    fun hsp hcs => ?deselect, fun hsp hlk hbus => ?releaseExclusive, fun hsp hlk hbus hreq => ?releaseShared,
    fun hsp hcs => ?abortDeselect, fun hsp h0 => ⟨fun hr => ?wait, fun hr => ?waited⟩,
    fun hsp hlk hbus => ?failExclusive, fun hsp hlk hbus hreq => ?failShared⟩
  case begin => rw [hi.exec_begin hsp hst, goto_of_run hsp]
  case exclusive => rw [hi.exec_acquire hsp, acquireStep_of_exclusive hbus hr hsp]
  case ask => rw [hi.exec_acquire hsp, acquireStep_of_ungranted hbus hr]
  case granted => rw [hi.exec_acquire hsp, acquireStep_of_granted hbus hr hsp]
  case select => rw [hi.exec_select hsp, selectStep_of_deselected hx hcs, goto, hsp, moveTo_run]
  case mode => rw [hi.exec_group hsp, groupStep_cmdMode hx hsp]
  case request =>
    rw [hi.exec_group hsp]
    exact groupStep_cmdByte_requests_one hx hr hfit
  case answered => rw [hi.exec_group hsp, groupStep_cmdByte_last hsp hr]
  case failed => rw [hi.exec_group hsp, groupStep_cmdByte_err hsp hr]
  case deselect => rw [hi.exec_deselect hsp, deselectStep_of_selected hx hsp hcs]
  case releaseExclusive =>
    rw [hi.exec_release hsp, releaseLock_of_exclusive hbus, enterDelay, goto, hsp]
    split_ifs <;> rfl
  case releaseShared =>
    rw [hi.exec_release hsp, releaseLock_of_shared hlk hbus, enterDelay, goto, hsp]
    split_ifs <;> rfl
  case abortDeselect => rw [hi.exec_abortDeselect hsp, deselectStep_of_selected hx hsp hcs]
  case wait => rw [hi.exec_postDelay hsp, delayStep_of_unanswered h0 hr]
  case waited => rw [hi.exec_postDelay hsp, delayStep_of_answered h0 hr, finish]
  case failExclusive => rw [hi.exec_abortRelease hsp, releaseLock_of_exclusive hbus]
  case failShared => rw [hi.exec_abortRelease hsp, releaseLock_of_shared hlk hbus]

end Sys2Proof.Machine

/-!
PROOFS. The run of a command under any answers of TRANSPORT: one lemma per kind of step, shared by the commands, then
the run of an INIT that ends in READY (O39).
-/

namespace Sys2Proof.Machine

/-! ## Runs with given answers -/

/-- With TRANSPORT's answers `as` the machine comes from `s` to `t` in at most `k` steps, and the answers `as'` are
left; `RunsTo` is the case without an answer given. -/
def AnsweredRun (k : Nat) (as : List Answer) (s : State) (as' : List Answer) (t : State) : Prop :=
  ∃ j, j ≤ k ∧ ∀ fuel, drive (j + fuel) as s = drive fuel as' t

section
variable {as as' as'' : List Answer} {j k : Nat} {s t v : State}

theorem AnsweredRun.refl (k : Nat) (as : List Answer) (s : State) : AnsweredRun k as s as s :=
  ⟨0, Nat.zero_le k, fun fuel => by rw [Nat.zero_add]⟩

theorem AnsweredRun.trans (hst : AnsweredRun j as s as' t) (htv : AnsweredRun k as' t as'' v) :
    AnsweredRun (j + k) as s as'' v := by
  obtain ⟨j', hj, hs⟩ := hst
  obtain ⟨k', hk, ht⟩ := htv
  exact ⟨j' + k', by omega, fun fuel => by rw [Nat.add_assoc, hs, ht]⟩

theorem AnsweredRun.mono (h : AnsweredRun j as s as' t) (hjk : j ≤ k) : AnsweredRun k as s as' t :=
  h.imp fun _ hj => ⟨hj.1.trans hjk, hj.2⟩

theorem drive_idle (fuel : Nat) (as : List Answer) (h : t.sp = .idle) : drive fuel as t = .next t := by
  cases fuel with
  | zero => rfl
  | succ fuel => simp only [drive, h]

/-- A run does not consult the schedule of the state it starts from. -/
theorem drive_turns_nil {op : Byte} {st : SeqStep} {n fuel : Nat} (hsp : s.sp = .run op st n) (hf : 0 < fuel) :
    drive fuel as { s with turns := [] } = drive fuel as s := by
  obtain ⟨fuel, rfl⟩ := Nat.exists_eq_succ_of_ne_zero hf.ne'
  simp only [drive, hsp]
  rfl

/-- The run of a command that has come to IDLE is over. -/
theorem AnsweredRun.drive_eq {op : Byte} {st : SeqStep} {n : Nat} (h : AnsweredRun k as { s with turns := [] } as' t)
    (hsp : s.sp = .run op st n) (hidle : t.sp = .idle) (hk : k ≤ commandBound s) :
    drive (commandBound s) as s = .next t := by
  obtain ⟨j, hj, hrun⟩ := h
  have hpos : 0 < commandBound s := by simp only [commandBound]; omega
  rw [← drive_turns_nil hsp hpos, ← Nat.add_sub_cancel' (hj.trans hk), hrun, drive_idle _ _ hidle]

end

/-! ## Where a run stands -/

/-- The fields that tell what a driver command sends and what it counts (R201, R206, R208, R213). -/
structure RunView where
  params : Params
  cfg : Cfg
  dw : Window
  pb : Memory 16
  draw : Nat
  chunksIssued : Half

/-- What a driver command sees of a state. -/
def runView (s : State) : RunView := ⟨s.params, s.cfg, s.dw, s.pb, s.draw, s.chunksIssued⟩

/-- The fields that tell which command runs, how far it is, and what it waits for, but the lock. -/
def controlView (s : State) : SeqPtr × Assembler × List Turn × Option Answer × Bool × Option Half × Bool :=
  (s.sp, s.asm, s.turns, s.reply, s.xfer.pending, s.delay, s.closePending)

/-- Command `i` is about to take step `st` with counter `n`: it sees what `u` holds, waits for nothing, and the wire
trace is `tr`. -/
structure RunAt (i : Instr) (u : State) (st : SeqStep) (n : Nat) (tr : List Event) (s : State) : Prop where
  inv : Inv s
  quiet : Quiet s
  decoded : ∃ rest, decode (asmWords s) = .ok (i, rest)
  sp : AtStep s st n
  view : runView s = runView u
  trace : s.trace = tr

section
variable {i : Instr} {u u' s t w : State} {st next hold : SeqStep} {n n' k : Nat} {tr tr' ev : List Event}
  {as : List Answer} {op : Byte} {rest : List Word}

/-- A command at its first step, with the schedule put aside. -/
theorem RunAt.start (hinv : Inv s) (hsp : s.sp = .run op .begin n) (hdec : decode (asmWords s) = .ok (i, rest))
    (hc : s.closePending = false) : RunAt i s .begin n s.trace { s with turns := [] } := by
  obtain ⟨hx, hd, hl⟩ := hinv.quiet hsp rfl
  exact ⟨{ hinv with }, ⟨rfl, hinv.noReply, hx, hd, hl, hc⟩, ⟨rest, hdec⟩, ⟨op, hsp⟩, rfl, rfl⟩

theorem RunAt.levels (h : RunAt i u st n tr s) : (s.csN, s.rstN, s.locked) = stepLevels st := by
  obtain ⟨op, hsp⟩ := h.sp
  have hlevels := h.inv.levels
  rwa [hsp] at hlevels

theorem RunAt.noTransfer (h : RunAt i u st n tr s) : s.xfer.pending = false := by
  obtain ⟨-, -, hx, -, -, -⟩ := h.quiet
  exact hx

theorem RunAt.lockFree (h : RunAt i u st n tr s) : (s.lockReq && !s.locked) = false := by
  obtain ⟨-, -, -, -, hl, -⟩ := h.quiet
  exact hl

theorem RunAt.params (h : RunAt i u st n tr s) : s.params = u.params := congrArg RunView.params h.view

theorem RunAt.wellFormed (h : RunAt i u st n tr s) : u.params.wellFormed = true := h.params ▸ h.inv.params

/-- The run stands at the next step, in a state that sees what `u'` holds and waits for what `s` waited for. -/
theorem RunAt.of_goto (h : RunAt i u st n tr s) (hinv : Inv (goto next n' w)) (hcontrol : controlView w = controlView s)
    (hlock : (w.lockReq && !w.locked) = false) (hview : runView w = runView u') (htrace : w.trace = tr') :
    RunAt i u' next n' tr' (goto next n' w) := by
  simp only [controlView, Prod.mk.injEq] at hcontrol
  obtain ⟨hsp, hasm, hturns, hreply, hxfer, hdelay, hclose⟩ := hcontrol
  obtain ⟨hsTurns, hsReply, hsXfer, hsDelay, -, hsClose⟩ := h.quiet
  obtain ⟨op, hs⟩ := h.sp
  exact {
    inv := hinv
    quiet := ⟨hturns.trans hsTurns, hreply.trans hsReply, hxfer.trans hsXfer, hdelay.trans hsDelay, hlock,
      hclose.trans hsClose⟩
    decoded := by simpa only [asmWords, goto_asm, hasm] using h.decoded
    sp := ⟨op, by simp [hsp, hs]⟩
    view := hview
    trace := htrace }

/-! ## One step of a run -/

/-- One step of a run, from a state that meets the invariant to one that does. -/
theorem answeredRun_step (hinv : Inv s) (hsp : s.sp = .run op st n)
    (h : step { s with turns := [coopTurn (as.headD .ok) s] } = .next t) :
    AnsweredRun 1 as s (if s.xfer.pending then as.tail else as) t ∧ Inv t := by
  refine ⟨⟨1, le_rfl, fun fuel => ?_⟩,
    stepKeepsInvariant { s with turns := [coopTurn (as.headD .ok) s] } t { hinv with } h⟩
  rw [Nat.add_comm]
  simp only [drive, hsp]
  rw [← hsp]
  simp only [h]

/-- Out of a hold the core moves: one step of the command. -/
theorem RunAt.core (h : RunAt i u st n tr s) (hexec : exec i s = .next t) : AnsweredRun 1 as s as t ∧ Inv t := by
  obtain ⟨op, hsp⟩ := h.sp
  obtain ⟨rest, hdec⟩ := h.decoded
  obtain ⟨hturns, -, hx, hd, hl, hc⟩ := h.quiet
  have hturn : coopTurn (as.headD .ok) s = ⟨none, .core⟩ := by simp [coopTurn, hx, hd, hl]
  have hstep : step { s with turns := [coopTurn (as.headD .ok) s] } = .next t := by
    obtain ⟨hfree, -, -⟩ := stepRunsTheDecodedInstruction { s with turns := [⟨none, .core⟩] } op st n hsp hc
    rw [hturn, ← hexec, ← congrArg (exec i) (turns_nil_eq hturns)]
    exact ((hfree hx hd hl).2 i rest hdec).2 [] rfl
  simpa only [hx, Bool.false_eq_true, if_false] using answeredRun_step h.inv hsp hstep

/-- A waiting transfer is answered at once: the command's step with that answer. -/
theorem answeredRun_transport (hinv : Inv s) (hsp : s.sp = .run op st n) (hdec : decode (asmWords s) = .ok (i, rest))
    (hc : s.closePending = false) (hx : s.xfer.pending = true)
    (hexec : exec i (recordAnswer (as.headD .ok) { s with turns := [] }) = .next t) :
    AnsweredRun 1 as s as.tail t ∧ Inv t := by
  have hturn : coopTurn (as.headD .ok) s = ⟨none, .transport (as.headD .ok)⟩ := by simp [coopTurn, hx]
  have hstep : step { s with turns := [coopTurn (as.headD .ok) s] } = .next t := by
    rw [hturn, ← hexec]
    obtain ⟨-, -, hanswer⟩ :=
      stepRunsTheDecodedInstruction { s with turns := [⟨none, .transport (as.headD .ok)⟩] } op st n hsp hc
    exact (hanswer i rest [] hdec).1 _ hx rfl
  simpa only [hx, if_true] using answeredRun_step hinv hsp hstep

/-- A pending delay is over at once: the command's step with TIMER's answer. -/
theorem answeredRun_timer (hinv : Inv s) (hsp : s.sp = .run op st n) (hdec : decode (asmWords s) = .ok (i, rest))
    (hc : s.closePending = false) (hx : s.xfer.pending = false) (hd : s.delay ≠ none)
    (hexec : exec i { s with turns := [], delay := none, reply := some .ok } = .next t) :
    AnsweredRun 1 as s as t ∧ Inv t := by
  have hturn : coopTurn (as.headD .ok) s = ⟨none, .timer⟩ := by
    simp [coopTurn, hx, Option.isSome_iff_ne_none.2 hd]
  have hstep : step { s with turns := [coopTurn (as.headD .ok) s] } = .next t := by
    rw [hturn, ← hexec]
    obtain ⟨-, -, hanswer⟩ := stepRunsTheDecodedInstruction { s with turns := [⟨none, .timer⟩] } op st n hsp hc
    exact (hanswer i rest [] hdec).2.1 hd rfl
  simpa only [hx, Bool.false_eq_true, if_false] using answeredRun_step hinv hsp hstep

/-- A waiting lock request is granted at once: the command's step with the grant. -/
theorem answeredRun_grant (hinv : Inv s) (hsp : s.sp = .run op st n) (hdec : decode (asmWords s) = .ok (i, rest))
    (hc : s.closePending = false) (hx : s.xfer.pending = false) (hd : s.delay = none)
    (hl : (s.lockReq && !s.locked) = true) (hexec : exec i { s with turns := [], reply := some .ok } = .next t) :
    AnsweredRun 1 as s as t ∧ Inv t := by
  have hturn : coopTurn (as.headD .ok) s = ⟨none, .grant⟩ := by simp [coopTurn, hx, hd, hl]
  have hstep : step { s with turns := [coopTurn (as.headD .ok) s] } = .next t := by
    rw [hturn, ← hexec]
    obtain ⟨-, -, hanswer⟩ := stepRunsTheDecodedInstruction { s with turns := [⟨none, .grant⟩] } op st n hsp hc
    exact (hanswer i rest [] hdec).2.2 hl rfl
  simpa only [hx, Bool.false_eq_true, if_false] using answeredRun_step hinv hsp hstep

/-- The run goes to its next step, by an update `w` of the state that the core makes without waiting. -/
theorem RunAt.advance (h : RunAt i u st n tr s) (hexec : exec i s = .next (goto next n' w))
    (hcontrol : controlView w = controlView s) (hlock : (w.lockReq && !w.locked) = false)
    (hview : runView w = runView u') (htrace : w.trace = tr') :
    ∃ t, AnsweredRun 1 as s as t ∧ RunAt i u' next n' tr' t :=
  have hstep := h.core (as := as) hexec
  ⟨_, hstep.1, h.of_goto hstep.2 hcontrol hlock hview htrace⟩

/-- A transfer of the run, requested, answered, and the next step (R170). The step may count the transfer as it requests
it, as a chunk's does. -/
theorem RunAt.transfer {b : Bool} {bytes : List Byte} {c : Half} (h : RunAt i u st n tr s)
    (hmode : stepMode st = some b) (hfit : 0 < bytes.length ∧ bytes.length ≤ u.params.tbufBytes)
    (hreq : exec i s = requestTransfer bytes { s with chunksIssued := c })
    (hview : runView { s with chunksIssued := c } = runView u')
    (hanswer : ∀ t, AtStep t st n → runView t = runView u' → t.reply = some (as.headD .ok) →
      exec i t = .next (goto next n' { t with reply := none })) :
    ∃ t, AnsweredRun 2 as s as.tail t ∧ RunAt i u' next n' (tr ++ [.tx (modeOf b) bytes (as.headD .ok)]) t := by
  obtain ⟨op, hsp⟩ := h.sp
  obtain ⟨rest, hdec⟩ := h.decoded
  obtain ⟨hturns, hr, hx, -, hl, hc⟩ := h.quiet
  have hdc : s.dc = b := h.inv.mode b (by rw [hsp]; exact hmode)
  obtain ⟨t₁, ht₁⟩ : ∃ t, requestTransfer bytes { s with chunksIssued := c } = .next t :=
    ⟨_, requestTransfer_eq_next.2 ⟨⟨hx, hfit.1, h.params ▸ hfit.2⟩, rfl⟩⟩
  have hsent := sentBytes_requestTransfer ht₁
  obtain ⟨hrun₁, hinv₁⟩ := h.core (as := as) (hreq.trans ht₁)
  obtain ⟨-, rfl⟩ := requestTransfer_eq_next.1 ht₁
  obtain ⟨hrun₂, hinv₂⟩ := answeredRun_transport (as := as) hinv₁ hsp hdec hc rfl (hanswer _ h.sp hview rfl)
  refine ⟨_, hrun₁.trans hrun₂, h.of_goto hinv₂ ?_ hl hview ?_⟩
  · simp [controlView, recordAnswer, hturns, hr, hx]
  · show s.trace ++ [.tx (modeOf s.dc) _ _] = _
    rw [h.trace, hdc]
    exact congrArg (fun bs => tr ++ [.tx (modeOf b) bs (as.headD .ok)]) hsent

/-- A delay of the run, and what follows TIMER's answer (R174). -/
theorem RunAt.delay {ms : Half} {after : State → Out} (h : RunAt i u hold n tr s) (h0 : ms ≠ 0)
    (hexec : ∀ t, AtStep t hold n → runView t = runView u → exec i t = delayStep ms after t)
    (hafter : after { s with trace := s.trace ++ [.wait ms] } = .next t) : AnsweredRun 2 as s as t ∧ Inv t := by
  obtain ⟨op, hsp⟩ := h.sp
  obtain ⟨rest, hdec⟩ := h.decoded
  obtain ⟨hturns, hr, hx, hd, -, hc⟩ := h.quiet
  have hwait : exec i s = .next (requestDelay ms s) := by
    rw [hexec s h.sp h.view]
    exact delayStep_of_unanswered h0 hr
  obtain ⟨hrun₁, hinv₁⟩ := h.core (as := as) hwait
  have hover : exec i { requestDelay ms s with turns := [], delay := none, reply := some .ok } = .next t := by
    rw [hexec { requestDelay ms s with turns := [], delay := none, reply := some .ok } h.sp h.view,
      delayStep_of_answered (s := { requestDelay ms s with turns := [], delay := none, reply := some .ok }) h0 rfl,
      ← hafter, ← hturns, ← hr, ← hd]
    rfl
  obtain ⟨hrun₂, hinv₂⟩ := answeredRun_timer (as := as) hinv₁ hsp hdec hc hx (by simp [requestDelay]) hover
  exact ⟨hrun₁.trans hrun₂, hinv₂⟩

theorem waitEvents_zero : waitEvents 0 = [] := rfl

theorem waitEvents_of_ne {ms : Half} (h : ms ≠ 0) : waitEvents ms = [.wait ms] := if_neg h

/-- The step whose update `w` leads to a delay, or past a delay of 0, and then what follows (R174). What follows sets SP
itself. -/
theorem RunAt.pause {ms : Half} {after : State → Out} (h : RunAt i u st n tr s)
    (hexec : exec i s = enterDelay ms hold k after w) (hcontrol : controlView w = controlView s)
    (hlock : (w.lockReq && !w.locked) = false) (hview : runView w = runView u)
    (hhold : ∀ t, AtStep t hold k → runView t = runView u → exec i t = delayStep ms after t)
    (hsp : ∀ t, after (goto hold k t) = after t)
    (hafter : after { w with trace := w.trace ++ waitEvents ms } = .next t) : AnsweredRun 3 as s as t ∧ Inv t := by
  by_cases h0 : ms = 0
  · have hnow : exec i s = .next t := by
      rw [hexec, enterDelay, if_pos h0, ← hafter, h0, waitEvents_zero, List.append_nil]
    exact (h.core hnow).imp_left (·.mono (by omega))
  · have hgo : exec i s = .next (goto hold k w) := by rw [hexec, enterDelay, if_neg h0]
    obtain ⟨hrun₁, hinv₁⟩ := h.core (as := as) hgo
    have h₁ : RunAt i u hold k w.trace (goto hold k w) := h.of_goto hinv₁ hcontrol hlock hview rfl
    obtain ⟨hrun₂, hinv₂⟩ := h₁.delay (as := as) h0 hhold (t := t) (by
      rw [← hafter, waitEvents_of_ne h0]
      exact hsp { w with trace := w.trace ++ [.wait ms] })
    exact ⟨hrun₁.trans hrun₂, hinv₂⟩

/-! ## The frame of a run -/

/-- The lock is SEQ's, at once or by ARBITER's grant (R176). -/
theorem RunAt.acquire (h : RunAt i u .acquire n tr s)
    (hexec : ∀ t, AtStep t .acquire n → exec i t = acquireStep (fun t => .next (goto .select 0 t)) t) :
    ∃ t, AnsweredRun 2 as s as t ∧ RunAt i u .select 0 (tr ++ if u.params.sharedBus then [.lock] else []) t := by
  obtain ⟨op, hsp⟩ := h.sp
  obtain ⟨rest, hdec⟩ := h.decoded
  obtain ⟨hturns, hr, hx, hd, hl, hc⟩ := h.quiet
  have hlk : s.locked = false := congrArg (·.2.2) h.levels
  cases hb : u.params.sharedBus with
  | false =>
    have hbus : s.params.sharedBus = false := h.params ▸ hb
    have htaken : exec i s = .next (goto .select 0 (takeLock s)) := by
      rw [hexec s h.sp, acquireStep, if_neg (by simp [hbus]), reply_none_eq hr]
    obtain ⟨t, hrun, ht⟩ := h.advance (as := as) htaken rfl (by simp) h.view (tr' := tr) (by simp [hbus, h.trace])
    exact ⟨t, hrun.mono (by omega), by simpa using ht⟩
  | true =>
    have hbus : s.params.sharedBus = true := h.params ▸ hb
    obtain ⟨hrun₁, hinv₁⟩ := h.core (as := as) ((hexec s h.sp).trans (acquireStep_of_ungranted hbus hr))
    have htaken : exec i { s with lockReq := true, turns := [], reply := some .ok } =
        .next (goto .select 0 (takeLock { s with lockReq := true })) := by
      rw [hexec { s with lockReq := true, turns := [], reply := some .ok } h.sp, acquireStep, if_pos hbus, ← hturns]
      conv_rhs => rw [← reply_none_eq hr]
    obtain ⟨hrun₂, hinv₂⟩ := answeredRun_grant (as := as) hinv₁ hsp hdec hc hx hd (by simp [hlk]) htaken
    exact ⟨_, hrun₁.trans hrun₂, h.of_goto hinv₂ rfl (by simp) h.view (by simp [hbus, h.trace])⟩

/-- Chip-select falls, and the frame is open (R163, R179). -/
theorem RunAt.select {after : State → Out} (h : RunAt i u .select n tr s)
    (hexec : exec i s = andThen (lineOp selectLine s) after)
    (hafter : after (selectLine s) = .next (goto next n' (selectLine s))) :
    ∃ t, AnsweredRun 1 as s as t ∧ RunAt i u next n' (tr ++ [.cs false]) t := by
  have hcs : s.csN = true := congrArg (·.1) h.levels
  rw [lineOp_ready _ h.noTransfer, andThen_next, hafter] at hexec
  exact h.advance hexec rfl h.lockFree h.view (by simp [hcs, h.trace])

/-- Chip-select rises at the end of a frame (R164, R179, R181). -/
theorem RunAt.deselect (h : RunAt i u st n tr s) (hcs : (stepLevels st).1 = false)
    (hexec : exec i s = deselectStep next s) :
    ∃ t, AnsweredRun 1 as s as t ∧ RunAt i u next 0 (tr ++ [.cs true]) t := by
  have hsel : s.csN = false := (congrArg (·.1) h.levels).trans hcs
  rw [deselectStep, lineOp_ready _ h.noTransfer] at hexec
  exact h.advance hexec rfl h.lockFree h.view (by simp [hsel, h.trace])

/-! ## A group of a run -/

/-- CmdMode: the command byte is next (R165, R180). -/
theorem RunAt.cmdMode {g : Group} {cmd : Byte} {params : List Byte} {onOk : State → Out}
    (h : RunAt i u (.group g .cmdMode) n tr s) (hexec : exec i s = groupStep g .cmdMode k cmd params onOk s) :
    ∃ t, AnsweredRun 1 as s as t ∧ RunAt i u (.group g .cmdByte) k tr t := by
  rw [groupStep, lineOp_ready _ h.noTransfer] at hexec
  exact h.advance hexec rfl h.lockFree h.view h.trace

/-- DataMode: the parameters are next (R166, R180). -/
theorem RunAt.dataMode {g : Group} {cmd : Byte} {params : List Byte} {onOk : State → Out}
    (h : RunAt i u (.group g .dataMode) n tr s) (hexec : exec i s = groupStep g .dataMode k cmd params onOk s) :
    ∃ t, AnsweredRun 1 as s as t ∧ RunAt i u (.group g .params) k tr t := by
  rw [groupStep, lineOp_ready _ h.noTransfer] at hexec
  exact h.advance hexec rfl h.lockFree h.view h.trace

/-- A transfer of a group, answered OK (R170, R180). -/
theorem RunAt.transferOk {b : Bool} {bytes : List Byte} {onOk : State → Out} (h : RunAt i u st n tr s)
    (hmode : stepMode st = some b) (hfit : 0 < bytes.length ∧ bytes.length ≤ u.params.tbufBytes)
    (hexec : ∀ t, AtStep t st n → runView t = runView u → exec i t = transferStep bytes onOk t)
    (hok : ∀ t, runView t = runView u → onOk t = .next (goto next n' t)) :
    ∃ t, AnsweredRun 2 [] s [] t ∧ RunAt i u next n' (tr ++ [.tx (modeOf b) bytes .ok]) t := by
  refine h.transfer (as := []) (c := s.chunksIssued) hmode hfit ?_ h.view fun t hat hview hr => ?_
  · rw [hexec s h.sp h.view, transferStep_none h.inv.noReply]
  · rw [hexec t hat hview, transferStep_ok hr, hok { t with reply := none } hview]

/-- A whole group of the run, each transfer answered OK (R180). -/
theorem RunAt.groupOk {g : Group} {cmd : Byte} {params : List Byte} {onOk : State → Out}
    (h : RunAt i u (.group g .cmdMode) k tr s)
    (hexec : ∀ t m, m ≠ .settle → AtStep t (.group g m) k → runView t = runView u →
      exec i t = groupStep g m k cmd params onOk t)
    (hok : ∀ t, runView t = runView u → onOk t = .next (goto next n' t)) (hfit : params.length ≤ u.params.tbufBytes) :
    ∃ t, AnsweredRun 6 [] s [] t ∧ RunAt i u next n' (tr ++ groupEvents cmd params) t := by
  have hbuf : 1 ≤ u.params.tbufBytes := by
    have hbounds := maxChunk_bounds h.wellFormed
    omega
  obtain ⟨t₁, hrun₁, h₁⟩ := h.cmdMode (as := []) (hexec s .cmdMode (by simp) h.sp h.view)
  have hbyte : ∀ t, AtStep t (.group g .cmdByte) k → runView t = runView u → exec i t = transferStep [cmd]
      (fun t => if params = [] then onOk t else .next (goto (.group g .dataMode) k t)) t :=
    fun t => hexec t .cmdByte (by simp)
  have hparams : ∀ t, AtStep t (.group g .params) k → runView t = runView u → exec i t = transferStep params onOk t :=
    fun t => hexec t .params (by simp)
  by_cases hp : params = []
  · obtain ⟨t₂, hrun₂, h₂⟩ := h₁.transferOk (bytes := [cmd]) rfl ⟨Nat.one_pos, hbuf⟩ hbyte
      fun t ht => (if_pos hp).trans (hok t ht)
    exact ⟨t₂, (hrun₁.trans hrun₂).mono (by omega), by simpa [groupEvents, hp, txC, modeOf] using h₂⟩
  · obtain ⟨t₂, hrun₂, h₂⟩ := h₁.transferOk (bytes := [cmd]) rfl ⟨Nat.one_pos, hbuf⟩ hbyte fun t _ => if_neg hp
    obtain ⟨t₃, hrun₃, h₃⟩ := h₂.dataMode (as := []) (hexec t₂ .dataMode (by simp) h₂.sp h₂.view)
    obtain ⟨t₄, hrun₄, h₄⟩ := h₃.transferOk rfl ⟨List.length_pos_iff.2 hp, hfit⟩ hparams hok
    exact ⟨t₄, hrun₁.trans (hrun₂.trans (hrun₃.trans hrun₄)), by
      simpa [groupEvents, hp, txC, txD, modeOf] using h₄⟩

/-- Releasing the lock withdraws SEQ's request for it (R177). -/
theorem RunAt.lockFree_releaseLock (h : RunAt i u st n tr s) (hlk : (stepLevels st).2.2 = true) :
    ((releaseLock s).lockReq && !(releaseLock s).locked) = false := by
  have hlocked : s.locked = true := (congrArg (·.2.2) h.levels).trans hlk
  cases hb : s.params.sharedBus with
  | true => simp [hlocked, hb]
  | false =>
    have hreq : s.lockReq = false := by
      by_contra hr
      exact Bool.false_ne_true (hb.symm.trans (h.inv.lockShared (by simpa using hr)))
    simp [hreq]

theorem RunAt.releaseLock_trace (h : RunAt i u st n tr s) (hlk : (stepLevels st).2.2 = true) :
    (releaseLock s).trace = tr ++ if u.params.sharedBus then [.unlock] else [] := by
  have hlocked : s.locked = true := (congrArg (·.2.2) h.levels).trans hlk
  simp [hlocked, h.params, h.trace]

theorem moveTo_moveTo (sp : SeqPtr) (st st' : SeqStep) (n n' : Nat) :
    (sp.moveTo st' n').moveTo st n = sp.moveTo st n := by cases sp <;> rfl

theorem goto_goto (st st' : SeqStep) (n n' : Nat) (s : State) : goto st n (goto st' n' s) = goto st n s := by
  simp only [goto, moveTo_moveTo]

/-- A command that has come to its end leaves the lines and the lock as an idle block has them (R300). -/
theorem Inv.levels_of_idle (h : Inv s) (hidle : s.sp = .idle) : s.csN = true ∧ s.rstN = true ∧ s.locked = false := by
  have hlevels := h.levels
  rw [hidle] at hlevels
  simpa [spLevels] using hlevels

end

/-! ## The run of an INIT -/

section
variable {ms : Half} {o : BitVec 2} {b v : Bool} {u s : State} {n k : Nat} {tr : List Event} {e : InitEntry}

theorem initOpen_goto (s : State) : initOpen (goto .recovery 0 s) = initOpen s :=
  congrArg Host.Outcome.next (goto_goto .acquire .recovery 0 0 { s with state := .initializing })

theorem initEntryGoal_of_params {t : State} (h : t.params = u.params) (k : Nat) :
    initEntryGoal t k = initEntryGoal u k := by rw [initEntryGoal, initEntryGoal, h]

/-- Entry `k` of the init table: its group, each transfer answered OK, and its delay (R204). -/
theorem RunAt.initEntry (h : RunAt (.init ms o b v) u (.group .initEntry .cmdMode) k tr s)
    (he : u.params.initTable[k]? = some e) :
    ∃ t, AnsweredRun 8 [] s [] t ∧ RunAt (.init ms o b v) u (initEntryGoal u (k + 1)).1 (initEntryGoal u (k + 1)).2
      (tr ++ (groupEvents (resolveCmd u e.cmd) (e.params.map (resolveParam u)) ++ waitEvents e.delayMs)) t := by
  have hview {t : State} (ht : runView t = runView u) : t.params = u.params ∧ t.cfg = u.cfg :=
    ⟨congrArg RunView.params ht, congrArg RunView.cfg ht⟩
  have hgoal {t : State} (ht : runView t = runView u) (j : Nat) : initEntryGoal t j = initEntryGoal u j :=
    initEntryGoal_of_params (hview ht).1 j
  have hfit : (e.params.map (resolveParam u)).length ≤ u.params.tbufBytes := by
    rw [List.length_map]
    exact initEntry_fits h.wellFormed (List.mem_of_getElem? he)
  have hresolve {t : State} (ht : runView t = runView u) :
      resolveCmd t e.cmd = resolveCmd u e.cmd ∧ resolveParam t = resolveParam u := by
    obtain ⟨hparams, hcfg⟩ := hview ht
    exact ⟨by simp only [resolveCmd, hparams, hcfg], by funext p; simp only [resolveParam, hcfg]⟩
  obtain ⟨t₁, hrun₁, h₁⟩ := h.groupOk (next := (initSettleGoal u k e).1) (n' := (initSettleGoal u k e).2)
    (fun t m hm ⟨op, hsp⟩ ht => by
      rw [exec_init_entry hsp ((hview ht).1 ▸ he) hm, (hresolve ht).1, (hresolve ht).2])
    (fun t ht => by rw [initEntryEnd_eq_goto, initSettleGoal, initSettleGoal, hgoal ht]) hfit
  by_cases h0 : e.delayMs = 0
  · rw [initSettleGoal, if_pos h0] at h₁
    exact ⟨t₁, hrun₁.mono (by omega), by rwa [h0, waitEvents_zero, List.append_nil]⟩
  · rw [initSettleGoal, if_neg h0] at h₁
    obtain ⟨hrun₂, hinv₂⟩ := h₁.delay (as := []) h0
      (fun t ⟨op, hsp⟩ ht => exec_init_settle hsp ((hview ht).1 ▸ he)) (initEntryAt_eq_goto (k + 1) _)
    rw [hgoal (t := { t₁ with trace := t₁.trace ++ [.wait e.delayMs] }) h₁.view] at hrun₂ hinv₂
    exact ⟨_, hrun₁.trans hrun₂, h₁.of_goto hinv₂ rfl h₁.lockFree h₁.view (by
      rw [waitEvents_of_ne h0, h₁.trace, List.append_assoc])⟩

/-- The entries of the table from `k` on, one after another (R204). -/
theorem RunAt.initTable (table : List InitEntry) (htable : u.params.initTable.drop k = table)
    (h : RunAt (.init ms o b v) u (initEntryGoal u k).1 (initEntryGoal u k).2 tr s) :
    ∃ t, AnsweredRun (8 * table.length) [] s [] t ∧
      RunAt (.init ms o b v) u .deselect 0 (tr ++ initTableEvents u table) t := by
  induction table generalizing k tr s with
  | nil =>
    have hk : ¬ k < u.params.initTable.length := by
      have := List.drop_eq_nil_iff.1 htable
      omega
    rw [initEntryGoal, if_neg hk] at h
    exact ⟨s, .refl _ _ _, by simpa [initTableEvents] using h⟩
  | cons e table ih =>
    have he : u.params.initTable[k]? = some e := by
      rw [← List.head?_drop, htable, List.head?_cons]
    have hk : k < u.params.initTable.length := (List.getElem?_eq_some_iff.1 he).1
    rw [initEntryGoal, if_pos hk] at h
    obtain ⟨t₁, hrun₁, h₁⟩ := h.initEntry he
    obtain ⟨t₂, hrun₂, h₂⟩ := ih (k := k + 1) (by rw [← List.drop_drop, htable, List.drop_one, List.tail_cons]) h₁
    exact ⟨t₂, (hrun₁.trans hrun₂).mono (by simp only [List.length_cons]; omega), by
      simpa [initTableEvents] using h₂⟩

/-- INIT's reset pulse and recovery delay (R169, R272). -/
theorem RunAt.initReset (h : RunAt (.init ms o b v) u .resetLow n tr s) :
    ∃ t, AnsweredRun 6 [] s [] t ∧ RunAt (.init ms o b v) u .acquire 0
      (tr ++ [.rst false] ++ waitEvents ms ++ [.rst true] ++ waitEvents u.params.tResetRecovery) t := by
  have hhigh : s.rstN = true := congrArg (·.2.1) h.levels
  obtain ⟨op, hsp⟩ := h.sp
  obtain ⟨hrun₁, hinv₁⟩ := h.pause (as := []) (ms := ms) (hold := .resetHold) (k := 0) (w := resetLowLine s)
    (after := fun t => .next (goto .resetHigh 0 t))
    (by rw [exec_init_resetLow hsp, lineOp_ready _ h.noTransfer, andThen_next]) rfl h.lockFree h.view
    (fun t ⟨op, hsp⟩ _ => exec_init_resetHold hsp) (fun t => by rw [goto_goto]) rfl
  have h₁ := h.of_goto (tr' := tr ++ [.rst false] ++ waitEvents ms) hinv₁ rfl h.lockFree h.view
    (by simp [hhigh, h.trace])
  generalize goto .resetHigh 0 _ = s₁ at h₁ hrun₁
  have hlow : s₁.rstN = false := congrArg (·.2.1) h₁.levels
  obtain ⟨op₁, hsp₁⟩ := h₁.sp
  obtain ⟨hrun₂, hinv₂⟩ := h₁.pause (as := []) (ms := u.params.tResetRecovery) (hold := .recovery) (k := 0)
    (w := resetHighLine s₁) (after := initOpen)
    (by rw [exec_init_resetHigh hsp₁, lineOp_ready _ h₁.noTransfer, andThen_next, h₁.params]) rfl h₁.lockFree h₁.view
    (fun t ⟨op, hsp⟩ ht => by rw [exec_init_recovery hsp, show t.params = u.params from congrArg RunView.params ht])
    initOpen_goto rfl
  exact ⟨_, hrun₁.trans hrun₂, h₁.of_goto hinv₂ rfl h₁.lockFree h₁.view (by simp [hlow, h₁.trace])⟩

/-- INIT's end: the lock released, the delay, then READY with OK (R272, R277). -/
theorem RunAt.initEnd (h : RunAt (.init ms o b v) u .release n tr s) :
    ∃ t, AnsweredRun 3 [] s [] t ∧ Inv t ∧ t.sp = .idle ∧ t.busy = false ∧ t.state = .ready ∧ t.result = .ok ∧
      t.lastOp = 1 ∧ t.intDone = true ∧ runView t = runView u ∧
      t.trace = tr ++ (if u.params.sharedBus then [.unlock] else []) ++ waitEvents u.params.tPostInit := by
  obtain ⟨op, hsp⟩ := h.sp
  obtain ⟨rest, hdec⟩ := h.decoded
  obtain ⟨hrun, hinv⟩ := h.pause (as := []) (ms := u.params.tPostInit) (hold := .postDelay) (k := 0)
    (w := releaseLock s) (after := finish .ready .ok) (by rw [exec_init_release hsp, h.params]) rfl
    (h.lockFree_releaseLock rfl) h.view
    (fun t ⟨op, hsp⟩ ht => by rw [exec_init_postDelay hsp, show t.params = u.params from congrArg RunView.params ht])
    (fun t => rfl) rfl
  exact ⟨_, hrun, hinv, rfl, rfl, rfl, rfl, (decode_ok_opcode hdec).symm, rfl, h.view, by
    rw [← h.releaseLock_trace rfl]
    rfl⟩

end

/-- Settles O39: the pulse, the frame around the table's entries by induction, and the delay after it. -/
theorem initRunsToReady : Obligations.InitRunsToReady := by
  intro s op n ms o b v rest hinv hsp hdec hst hc
  let u : State := { s with cfg := ⟨o, b, v⟩ }
  have h₀ := RunAt.start hinv hsp hdec hc
  have hbegin := (exec_init_begin (resetMs := ms) (o := o) (b := b) (v := v) (s := { s with turns := [] }) hsp).trans
    (checked_ok (check_init_ok hst))
  obtain ⟨s₁, hrun₁, h₁⟩ := h₀.advance (as := []) (u' := u) hbegin rfl h₀.lockFree rfl rfl
  obtain ⟨s₂, hrun₂, h₂⟩ := h₁.initReset
  obtain ⟨s₃, hrun₃, h₃⟩ := h₂.acquire (as := []) fun t ⟨op, hsp⟩ => exec_init_acquire hsp
  obtain ⟨op₃, hsp₃⟩ := h₃.sp
  obtain ⟨s₄, hrun₄, h₄⟩ := h₃.select (as := []) (next := (initEntryGoal u 0).1) (n' := (initEntryGoal u 0).2)
    (exec_init_select hsp₃)
    (by rw [initEntryAt_eq_goto, initEntryGoal_of_params (t := selectLine s₃) (u := u) h₃.params])
  obtain ⟨s₅, hrun₅, h₅⟩ := h₄.initTable s.params.initTable rfl
  obtain ⟨op₅, hsp₅⟩ := h₅.sp
  obtain ⟨s₆, hrun₆, h₆⟩ := h₅.deselect (as := []) rfl (exec_init_deselect hsp₅)
  obtain ⟨t, hrun₇, hinvt, hidle, hbusy, hstate, hresult, hop, hdone, hview, htrace⟩ := h₆.initEnd
  obtain ⟨hcs, hrst, hlk⟩ := hinvt.levels_of_idle hidle
  have hrun := hrun₁.trans (hrun₂.trans (hrun₃.trans (hrun₄.trans (hrun₅.trans (hrun₆.trans hrun₇)))))
  have hdrive := hrun.drive_eq hsp hidle (by simp only [commandBound]; omega)
  simp only [runView, RunView.mk.injEq] at hview
  obtain ⟨-, hcfg, hdw, hpb, -, -⟩ := hview
  refine ⟨t, hdrive, hidle, hbusy, hstate, hresult, hop, hdone, hcfg, hpb, hdw, hcs, hrst, hlk, ?_⟩
  rw [htrace]
  simp [initEvents, frameEvents, u]

end Sys2Proof.Machine

/-!
PROOFS. The run of a FLUSH whose transfer `k` is answered ERR (O41): its transfers by number, the run up to transfer
`k`, and AbortFrame.
-/

namespace Sys2Proof.Machine

/-! ## The transfers of a FLUSH by number -/

/-- The step that requests transfer `k` of a FLUSH, with its counter: two for each group of the window, one for RAMWR,
then the chunks (R206, R213). -/
def flushStepOf : Nat → SeqStep × Nat
  | 0 => (.group .caset .cmdByte, 0)
  | 1 => (.group .caset .params, 0)
  | 2 => (.group .raset .cmdByte, 0)
  | 3 => (.group .raset .params, 0)
  | 4 => (.group .ramwr .cmdByte, 0)
  | k + 5 => (.chunk, k)

/-- The level of dc in transfer `k` (R206, R213). -/
def flushDcOf : Nat → Bool
  | 0 => false
  | 2 => false
  | 4 => false
  | _ => true

/-- The bytes of transfer `k` (R206, R212). -/
def flushBytesOf (u : State) : Nat → List Byte
  | 0 => [u.params.bytes.caset]
  | 1 => casetParams u
  | 2 => [u.params.bytes.raset]
  | 3 => rasetParams u
  | 4 => [u.params.bytes.ramwr]
  | k + 5 => chunkBytes u k

/-- Where FLUSH goes when transfer `k` is answered OK (R180, R206, R213). -/
def flushGoalOf (u : State) : Nat → SeqStep × Nat
  | 0 => (.group .caset .dataMode, 0)
  | 1 => (.group .raset .cmdMode, 0)
  | 2 => (.group .raset .dataMode, 0)
  | 3 => (.group .ramwr .cmdMode, 0)
  | 4 => (.pixelMode, 0)
  | k + 5 => flushChunkGoal u (k + 1)

/-- The event of transfer `k`, answered OK. -/
def flushEventOf (u : State) (k : Nat) : Event := .tx (modeOf (flushDcOf k)) (flushBytesOf u k) .ok

section
variable {u t : State} {k : Nat}

theorem windowEvents_eq_map (u : State) : windowEvents u = (List.range 5).map (flushEventOf u) := by
  simp only [windowEvents, groupEvents, casetParams, rasetParams, be16]
  rfl

/-- The transfers of the wire form are those of `flushStepOf`, in order. -/
theorem flushTransfers_eq_map (u : State) :
    flushTransfers u = (List.range (5 + chunkCount u)).map (flushEventOf u) := by
  have hchunk (k : Nat) : flushEventOf u (5 + k) = txD (chunkBytes u k) := by rw [Nat.add_comm]; rfl
  rw [flushTransfers, windowEvents_eq_map, List.range_add, List.map_append, List.map_map]
  exact congrArg _ (List.map_congr_left fun k _ => (hchunk k).symm)

theorem stepMode_flushStepOf (k : Nat) : stepMode (flushStepOf k).1 = some (flushDcOf k) := by
  match k with
  | 0 | 1 | 2 | 3 | 4 => rfl
  | k + 5 => rfl

theorem flushBytesOf_fit (hp : u.params.wellFormed = true) (hk : k < 5 + chunkCount u) :
    0 < (flushBytesOf u k).length ∧ (flushBytesOf u k).length ≤ u.params.tbufBytes := by
  have hbuf := (maxChunk_bounds hp).2.2.2
  have hbyte : 0 < 1 ∧ 1 ≤ u.params.tbufBytes := ⟨Nat.one_pos, by omega⟩
  have hparams : 0 < 4 ∧ 4 ≤ u.params.tbufBytes := ⟨by omega, hbuf⟩
  match k with
  | 0 | 2 | 4 => exact hbyte
  | 1 | 3 => exact hparams
  | k + 5 => exact chunkBytes_fit hp (by omega)

theorem exists_chunk_of_not_window (hk : ¬ k < 5) : ∃ j, k = j + 5 := ⟨k - 5, by omega⟩

/-- FLUSH at a transfer of the window is a transfer step (R170, R180, R206). -/
theorem exec_flush_window (hk : k < 5) (hat : AtStep t (flushStepOf k).1 (flushStepOf k).2) : exec .flush t =
    transferStep (flushBytesOf t k) (fun v => .next (goto (flushGoalOf v k).1 (flushGoalOf v k).2 v)) t := by
  obtain ⟨op, hsp⟩ := hat
  match k with
  | 0 | 1 => exact exec_flush_caset hsp
  | 2 | 3 => exact exec_flush_raset hsp
  | 4 => exact exec_flush_ramwr hsp

/-- FLUSH at transfer `k` with an answer is a transfer step (R170). -/
theorem exec_flush_answered {a : Answer} (hat : AtStep t (flushStepOf k).1 (flushStepOf k).2)
    (hin : t.dw.inPanel t.params = true) (hr : t.reply = some a) : exec .flush t =
      transferStep (flushBytesOf t k) (fun v => .next (goto (flushGoalOf v k).1 (flushGoalOf v k).2 v)) t := by
  by_cases hk : k < 5
  · exact exec_flush_window hk hat
  · obtain ⟨j, rfl⟩ := exists_chunk_of_not_window hk
    obtain ⟨op, hsp⟩ := hat
    rw [exec_flush_chunk hsp, chunkStep_of_answered hin hr]
    exact congrArg (fun f => transferStep (chunkBytes t j) f t) (funext (flushChunkAt_eq_goto (j + 1)))

/-- Without an answer it counts the transfer, if it is a chunk's, and requests it (R170, R213). -/
theorem exec_flush_unanswered (hat : AtStep t (flushStepOf k).1 (flushStepOf k).2)
    (hin : t.dw.inPanel t.params = true) (hr : t.reply = none) (hcount : t.chunksIssued = sat16 (k - 5)) :
    exec .flush t = requestTransfer (flushBytesOf t k) { t with chunksIssued := sat16 (k + 1 - 5) } := by
  by_cases hk : k < 5
  · rw [exec_flush_window hk hat, transferStep_none hr, show k + 1 - 5 = k - 5 by omega, ← hcount]
  · obtain ⟨j, rfl⟩ := exists_chunk_of_not_window hk
    obtain ⟨op, hsp⟩ := hat
    exact (exec_flush_chunk hsp).trans (chunkStep_of_unanswered hin hr)

end

/-! ## The run up to transfer `k` -/

/-- What a FLUSH that began in `u` sees before transfer `k`: CHUNKS.ISSUED counts the chunks requested (R213). -/
def flushSeen (u : State) (k : Nat) : State := { u with chunksIssued := sat16 (k - 5) }

/-- Where FLUSH goes on the answer to transfer `k` (R170, R181). -/
def flushAnswered (u : State) (k : Nat) : Answer → SeqStep × Nat
  | .ok => flushGoalOf u k
  | .err => (.abortDeselect, 0)

section
variable {u s t : State} {j k : Nat} {tr : List Event} {as : List Answer}

/-- What a FLUSH sends next is told by what it sees, whatever it has counted. -/
theorem flush_sees (h : runView t = runView (flushSeen u j)) (k : Nat) :
    flushBytesOf t k = flushBytesOf u k ∧ flushGoalOf t k = flushGoalOf u k := by
  simp only [runView, RunView.mk.injEq] at h
  obtain ⟨hparams, -, hdw, hpb, hdraw, -⟩ := h
  have hparams : t.params = u.params := hparams
  have hdw : t.dw = u.dw := hdw
  have hpixel (a : Nat) : readPixel t a = readPixel u a := by
    rw [readPixel, readPixel, show t.pb = u.pb from hpb, show t.draw = u.draw from hdraw]
  match k with
  | 0 | 1 | 2 | 3 | 4 => exact ⟨by simp only [flushBytesOf, casetParams, rasetParams, hparams, hdw], rfl⟩
  | k + 5 => exact ⟨by simp only [flushBytesOf, chunkBytes, streamByte, hpixel, hparams, hdw], by
      simp only [flushGoalOf, flushChunkGoal, chunkCount_congr hdw hparams]⟩

/-- Transfer `k`, requested and answered: OK goes on, ERR goes to AbortFrame (R170, R213, R215). -/
theorem RunAt.flushTransfer (a : Answer) (h : RunAt .flush (flushSeen u k) (flushStepOf k).1 (flushStepOf k).2 tr s)
    (hin : u.dw.inPanel u.params = true) (hk : k < 5 + chunkCount u) :
    ∃ t, AnsweredRun 2 (a :: as) s as t ∧
      RunAt .flush (flushSeen u (k + 1)) (flushAnswered u k a).1 (flushAnswered u k a).2
        (tr ++ [.tx (modeOf (flushDcOf k)) (flushBytesOf u k) a]) t := by
  have hpanel {j : Nat} {t : State} (ht : runView t = runView (flushSeen u j)) : t.dw.inPanel t.params = true := by
    rw [show t.dw = u.dw from congrArg RunView.dw ht, show t.params = u.params from congrArg RunView.params ht]
    exact hin
  have hview : runView { s with chunksIssued := sat16 (k + 1 - 5) } = runView (flushSeen u (k + 1)) :=
    congrArg (fun v : RunView => { v with chunksIssued := sat16 (k + 1 - 5) }) h.view
  refine h.transfer (as := a :: as) (stepMode_flushStepOf k) (flushBytesOf_fit (u := u) h.wellFormed hk) ?_ hview
    fun t hat ht hr => ?_
  · rw [exec_flush_unanswered h.sp (hpanel h.view) h.inv.noReply (congrArg RunView.chunksIssued h.view),
      (flush_sees h.view k).1]
  · rw [exec_flush_answered hat (hpanel ht) hr]
    cases a with
    | ok => rw [transferStep_ok hr, (flush_sees (t := { t with reply := none }) ht k).2, flushAnswered]
    | err => rw [transferStep_err hr, flushAnswered]

/-- From the answer of transfer `k` to the request of the next: a line operation, but none between chunks (R180,
R213). -/
theorem RunAt.flushNext (h : RunAt .flush (flushSeen u j) (flushGoalOf u k).1 (flushGoalOf u k).2 tr s)
    (hk : k + 1 < 5 + chunkCount u) :
    ∃ t, AnsweredRun (if k < 5 then 1 else 0) as s as t ∧
      RunAt .flush (flushSeen u j) (flushStepOf (k + 1)).1 (flushStepOf (k + 1)).2 tr t := by
  obtain ⟨op, hsp⟩ := h.sp
  match k with
  | 0 => exact h.dataMode (exec_flush_caset hsp)
  | 1 => exact h.cmdMode (exec_flush_raset hsp)
  | 2 => exact h.dataMode (exec_flush_raset hsp)
  | 3 => exact h.cmdMode (exec_flush_ramwr hsp)
  | 4 =>
    exact h.advance ((exec_flush_pixelMode hsp).trans (pixelModeStep_eq_goto h.noTransfer h.inv.params)) rfl h.lockFree
      h.view h.trace
  | k + 5 =>
    rw [flushGoalOf, flushChunkGoal, if_pos (by omega)] at h
    exact ⟨s, .refl _ _ _, h⟩

/-- The first `k` transfers, answered OK, up to the request of transfer `k` (R206, R213). -/
theorem RunAt.flushTransfers (h : RunAt .flush (flushSeen u 0) (.group .caset .cmdMode) 0 tr s)
    (hin : u.dw.inPanel u.params = true) (hk : k < 5 + chunkCount u) :
    ∃ t, AnsweredRun (1 + 2 * k + min k 5) (List.replicate k .ok ++ as) s as t ∧
      RunAt .flush (flushSeen u k) (flushStepOf k).1 (flushStepOf k).2
        (tr ++ (List.range k).map (flushEventOf u)) t := by
  induction k generalizing as with
  | zero =>
    obtain ⟨op, hsp⟩ := h.sp
    obtain ⟨t, hrun, ht⟩ := h.cmdMode (exec_flush_caset hsp)
    exact ⟨t, hrun, by rwa [List.range_zero, List.map_nil, List.append_nil]⟩
  | succ k ih =>
    obtain ⟨t₁, hrun₁, h₁⟩ := ih (as := .ok :: as) (by omega)
    obtain ⟨t₂, hrun₂, h₂⟩ := h₁.flushTransfer .ok hin (by omega)
    obtain ⟨t₃, hrun₃, h₃⟩ := RunAt.flushNext h₂ hk
    refine ⟨t₃, ?_, by simpa [List.range_succ, flushEventOf] using h₃⟩
    rw [List.replicate_succ', List.append_assoc]
    exact (hrun₁.trans (hrun₂.trans hrun₃)).mono (by split_ifs <;> omega)

/-- AbortFrame after a failed transfer: chip-select rises, the lock is released, and the FLUSH ends in READY with
FLUSH_ERROR (R181, R282). -/
theorem RunAt.flushAbort (h : RunAt .flush (flushSeen u k) .abortDeselect 0 tr s) :
    ∃ t, AnsweredRun 2 as s as t ∧ Inv t ∧ t.sp = .idle ∧ t.state = .ready ∧ t.result = .flushError ∧
      runView t = runView (flushSeen u k) ∧
      t.trace = tr ++ [.cs true] ++ if u.params.sharedBus then [.unlock] else [] := by
  obtain ⟨op, hsp⟩ := h.sp
  obtain ⟨t₁, hrun₁, h₁⟩ := h.deselect (as := as) rfl (exec_flush_abortDeselect hsp)
  obtain ⟨op₁, hsp₁⟩ := h₁.sp
  obtain ⟨hrun₂, hinv₂⟩ := h₁.core (as := as) (exec_flush_abortRelease hsp₁)
  exact ⟨_, hrun₁.trans hrun₂, hinv₂, rfl, rfl, rfl, h₁.view, h₁.releaseLock_trace rfl⟩

/-- The wire form of a FLUSH whose transfer `k` fails, by the events of its transfers. -/
theorem flushFailureEvents_eq (hk : k < 5 + chunkCount u) : flushFailureEvents u k =
    frameEvents u.params.sharedBus ((List.range k).map (flushEventOf u) ++
      [.tx (modeOf (flushDcOf k)) (flushBytesOf u k) .err]) := by
  have hlen : k < ((List.range (5 + chunkCount u)).map (flushEventOf u)).length := by simpa using hk
  rw [flushFailureEvents, flushTransfers_eq_map, List.take_one_drop_eq_of_lt_length hlen, ← List.map_take,
    List.take_range, min_eq_left hk.le]
  simp [failed, flushEventOf]

end

/-- Settles O41: the frame opens, the first `k` transfers are answered OK, transfer `k` is counted, sent and answered
ERR, and AbortFrame ends the command. -/
theorem flushFailureKeepsTheWindow : Obligations.FlushFailureKeepsTheWindow := by
  intro s op n k rest more hinv hsp hdec hst hc hv hk
  have hin : s.dw.inPanel s.params = true := by
    rcases hinv.window with ⟨-, hin⟩ | hempty
    · exact hin
    · rw [hempty] at hv
      cases hv
  have h₀ := RunAt.start hinv hsp hdec hc
  have hbegin : exec .flush { s with turns := [] } = .next (goto .acquire 0
      { s with turns := [], chunksIssued := 0, chunksTotal := 0, state := .flushing }) := by
    rw [exec_flush_begin (s := { s with turns := [] }) hsp,
      checked_ok (check_flush_ok (s := { s with turns := [] }) hst)]
    exact if_pos hv
  obtain ⟨s₁, hrun₁, h₁⟩ := h₀.advance (u' := flushSeen s 0) hbegin rfl h₀.lockFree rfl rfl
  obtain ⟨s₂, hrun₂, h₂⟩ := h₁.acquire fun t ⟨op, hsp⟩ => exec_flush_acquire hsp
  obtain ⟨op₂, hsp₂⟩ := h₂.sp
  obtain ⟨s₃, hrun₃, h₃⟩ := h₂.select (exec_flush_select hsp₂) rfl
  obtain ⟨s₄, hrun₄, h₄⟩ := h₃.flushTransfers (as := .err :: more) hin hk
  obtain ⟨s₅, hrun₅, h₅⟩ := h₄.flushTransfer .err hin hk
  obtain ⟨t, hrun₆, hinvt, hidle, hstate, hresult, hview, htrace⟩ := RunAt.flushAbort h₅
  obtain ⟨hcs, -, hlk⟩ := hinvt.levels_of_idle hidle
  have hrun := hrun₁.trans (hrun₂.trans (hrun₃.trans (hrun₄.trans (hrun₅.trans hrun₆))))
  have hdrive := hrun.drive_eq hsp hidle (by simp only [commandBound]; omega)
  simp only [runView, RunView.mk.injEq] at hview
  obtain ⟨-, -, hdw, hpb, -, hissued⟩ := hview
  refine ⟨t, hdrive, hidle, hstate, hresult, hdw, hpb, hcs, hlk, hissued, ?_⟩
  rw [htrace, flushFailureEvents_eq hk]
  simp [frameEvents, flushSeen]

end Sys2Proof.Machine

/-!
PROOFS. CHUNKS along the run of a FLUSH (O40): a step of a run is a step of its command, and every step of FLUSH keeps the
account of the chunks it has requested.
-/

namespace Sys2Proof.Machine

/-! ## What every step of a run keeps -/

/-- What every step of a run leads on, the run leads to. -/
theorem drive_keeps {P : State → Prop}
    (hstep : ∀ s t a, P s → s.sp ≠ .idle → step { s with turns := [coopTurn a s] } = .next t → P t)
    (fuel : Nat) (as : List Answer) (s t : State) (h : P s) (hrun : drive fuel as s = .next t) : P t := by
  induction fuel generalizing as s with
  | zero =>
    cases hrun
    exact h
  | succ fuel ih =>
    rw [drive] at hrun
    split at hrun
    · cases hrun
      exact h
    next hsp =>
      split at hrun
      next u hu => exact ih _ u (hstep s u _ h (by rw [hsp]; simp) hu) hrun
      · cases hrun
      · cases hrun

section
variable {i : Instr} {s t u v : State} {a : Answer} {op : Byte} {st : SeqStep} {n total : Nat} {rest : List Word}

/-- A step of a run is a step of its command, from a state that differs by the answer handed over alone. Where a transfer
is requested, the answer is TRANSPORT's (R170, R381). -/
theorem exec_of_coopStep (hinv : Inv s) (hsp : s.sp = .run op st n) (hdec : decode (asmWords s) = .ok (i, rest))
    (hc : s.closePending = false) (h : step { s with turns := [coopTurn a s] } = .next t) :
    ∃ v, exec i v = .next t ∧ v.xfer.pending = false ∧
      v = { s with turns := v.turns, xfer := v.xfer, delay := v.delay, reply := v.reply, trace := v.trace } ∧
      (v.reply ≠ none → stepMode st ≠ none → s.xfer.pending = true) := by
  obtain ⟨hfree, -, hanswer⟩ := stepRunsTheDecodedInstruction { s with turns := [coopTurn a s] } op st n hsp hc
  obtain ⟨htransport, htimer, hgrant⟩ := hanswer i rest [] hdec
  by_cases hx : s.xfer.pending = true
  · have hturn : coopTurn a s = ⟨none, .transport a⟩ := if_pos hx
    exact ⟨_, (htransport a hx (by rw [hturn])).symm.trans h, rfl, rfl, fun _ _ => hx⟩
  have hx' : s.xfer.pending = false := by simpa using hx
  by_cases hd : s.delay = none
  swap
  · have hturn : coopTurn a s = ⟨none, .timer⟩ := by simp [coopTurn, hx', Option.isSome_iff_ne_none.2 hd]
    obtain ⟨ms, hms⟩ := Option.ne_none_iff_exists'.1 hd
    have hdelays := (hinv.delaying ms hms).2
    rw [hsp] at hdelays
    refine ⟨_, (htimer hd (by rw [hturn])).symm.trans h, hx', rfl, fun _ hmode => ?_⟩
    obtain ⟨b, hb⟩ := Option.ne_none_iff_exists'.1 hmode
    exact absurd ((stepLevels_of_mode hb).2.1.symm.trans hdelays) (by simp)
  by_cases hl : (s.lockReq && !s.locked) = true
  · have hturn : coopTurn a s = ⟨none, .grant⟩ := by simp [coopTurn, hx', hd, hl]
    obtain ⟨hreq, hlk⟩ : s.lockReq = true ∧ s.locked = false := by simpa using hl
    have hacq := hinv.lockWait hreq hlk
    rw [hsp] at hacq
    refine ⟨_, (hgrant hl (by rw [hturn])).symm.trans h, hx', rfl, fun _ hmode => ?_⟩
    obtain ⟨b, hb⟩ := Option.ne_none_iff_exists'.1 hmode
    exact absurd (by simpa [spStep] using hacq) (stepLevels_of_mode hb).2.2.1
  · have hl' : (s.lockReq && !s.locked) = false := by simpa using hl
    have hturn : coopTurn a s = ⟨none, .core⟩ := by simp [coopTurn, hx', hd, hl']
    exact ⟨_, (((hfree hx' hd hl').2 i rest hdec).2 [] (by rw [hturn])).symm.trans h, hx', rfl,
      fun hr => absurd hinv.noReply hr⟩

/-! ## CHUNKS along the run of a FLUSH -/

/-- CHUNKS shows `total` chunks, and all of them issued (R213). -/
def AllCounted (total : Nat) (s : State) : Prop := s.chunksIssued = sat16 total ∧ s.chunksTotal = sat16 total

/-- A transfer has been requested, and its answer has not been taken. -/
def InTransfer (s : State) : Prop := s.xfer.pending = true ∨ s.reply ≠ none

/-- What CHUNKS shows at a step of a FLUSH of `total` chunks: a chunk is counted when it is requested (R213). -/
def CountsAt (total : Nat) (s : State) : SeqStep → Nat → Prop
  | .chunk, k => k < total ∧ s.chunksTotal = sat16 total ∧ (InTransfer s → s.chunksIssued = sat16 (k + 1))
  | .deselect, _ => AllCounted total s
  | .release, _ => AllCounted total s
  | _, _ => True

/-- What CHUNKS shows during a FLUSH of `total` chunks, and after one that completes OK. -/
def Counts (total : Nat) (s : State) : Prop :=
  match s.sp with
  | .idle => s.result = .ok → AllCounted total s
  | .run _ st n => CountsAt total s st n

theorem Counts.at_step (h : Counts total s) (hsp : s.sp = .run op st n) : CountsAt total s st n := by
  simpa only [Counts, hsp] using h

theorem counts_of_run (hsp : s.sp = .run op st n) (h : CountsAt total s st n) : Counts total s := by
  simpa only [Counts, hsp] using h

theorem Counts.of_idle (h : Counts total s) (hsp : s.sp = .idle) (hok : s.result = .ok) : AllCounted total s := by
  simp only [Counts, hsp] at h
  exact h hok

theorem counts_goto {next : SeqStep} {k : Nat} (hsp : s.sp = .run op st n) (h : CountsAt total s next k) :
    Counts total (goto next k s) := by
  rw [goto_of_run hsp]
  exact h

/-- What CHUNKS shows at a step is told by CHUNKS, and at a step that requests a transfer by whether it is requested. -/
theorem CountsAt.of_eq (h : CountsAt total s st n) (hissued : v.chunksIssued = s.chunksIssued)
    (htotal : v.chunksTotal = s.chunksTotal) (hin : stepMode st ≠ none → InTransfer v → InTransfer s) :
    CountsAt total v st n := by
  cases st with
  | chunk =>
    obtain ⟨hn, hall, hcounted⟩ := h
    exact ⟨hn, htotal.trans hall, fun hv => hissued.trans (hcounted (hin (by simp [stepMode]) hv))⟩
  | deselect | release =>
    obtain ⟨hcounted, hall⟩ := h
    exact ⟨hissued.trans hcounted, htotal.trans hall⟩
  | _ => trivial

/-- A completion with an error leaves nothing to show. -/
theorem counts_of_error {c : Code} (hc : c ≠ .ok) : Counts total (complete c s) := fun h => absurd h hc

/-- A FLUSH is about to send a chunk, or has sent all of them (R213). -/
theorem counts_flushChunkAt {k : Nat} (h : flushChunkAt k s = .next t) (hsp : s.sp = .run op st n)
    (hfree : ¬ InTransfer s) (htotal : s.chunksTotal = sat16 (chunkCount s))
    (hissued : chunkCount s ≤ k → s.chunksIssued = sat16 (chunkCount s)) : Counts (chunkCount s) t := by
  rcases flushChunkAt_eq_next h with ⟨hk, rfl⟩ | ⟨hk, rfl⟩ 
  · exact counts_goto hsp ⟨hk, htotal, fun hin => absurd hin hfree⟩
  · exact counts_goto hsp ⟨hissued hk, htotal⟩

/-- At a group of the window nothing is claimed, nor at the step after it (R180). -/
theorem counts_groupStep {g : Group} {m : GroupStep} {cmd : Byte} {params : List Byte} {after : SeqStep}
    (h : groupStep g m 0 cmd params (fun t => .next (goto after 0 t)) s = .next t)
    (hsp : s.sp = .run op (.group g m) n) (hafter : ∀ s, CountsAt total s after 0) : Counts total t := by
  rcases groupStep_eq_next h with ⟨-, -, rfl⟩ | ⟨-, -, rfl⟩ | ⟨-, -, h⟩ | ⟨-, -, h⟩ | ⟨-, -, -, rfl⟩ | ⟨-, -, h⟩ |
    ⟨-, -, rfl⟩
  · exact counts_goto hsp trivial
  · exact counts_goto hsp trivial
  · obtain ⟨-, rfl⟩ := requestTransfer_eq_next.1 h
    exact counts_of_run hsp trivial
  · obtain ⟨-, rfl⟩ := requestTransfer_eq_next.1 h
    exact counts_of_run hsp trivial
  · exact counts_goto hsp trivial
  · cases h
    exact counts_goto hsp (hafter _)
  · exact counts_goto hsp trivial

/-- A chunk is counted at its request, and the last to be answered is the last of the plan (R213). -/
theorem counts_chunkStep (h : chunkStep n s = .next t) (hsp : s.sp = .run op .chunk n) (hx : s.xfer.pending = false)
    (hcounts : CountsAt (chunkCount s) s .chunk n) : Counts (chunkCount s) t := by
  obtain ⟨hn, htotal, hissued⟩ := hcounts
  obtain ⟨-, ⟨-, h⟩ | ⟨hr, h⟩ | ⟨-, rfl⟩⟩ := chunkStep_eq_next h
  · obtain ⟨-, rfl⟩ := requestTransfer_eq_next.1 h
    exact counts_of_run hsp ⟨hn, htotal, fun _ => rfl⟩
  · refine counts_flushChunkAt (s := { s with reply := none }) h hsp (by simp [InTransfer, hx]) htotal fun hk => ?_
    have hlast : chunkCount s = n + 1 := by
      have : chunkCount s ≤ n + 1 := hk
      omega
    exact (hissued (.inr (by simp [hr]))).trans (congrArg sat16 hlast.symm)
  · exact counts_goto hsp trivial

/-- FLUSH's arms in order (R279): none breaks the account of CHUNKS. -/
theorem counts_execFlush (h : execFlush s = .next t) (hcounts : Counts (chunkCount s) s) (hv : s.dw.valid = true)
    (hp : s.params.wellFormed = true) (hx : s.xfer.pending = false) (hr : t.reply = none) :
    Counts (chunkCount s) t := by
  unfold execFlush at h
  split at h
  case h_1 hsp =>
    rcases checked_eq_next h with ⟨-, hbegin⟩ | ⟨hc, rfl⟩
    · simp only [flushBegin, hv, if_true] at hbegin
      cases hbegin
      exact counts_goto hsp trivial
    · exact counts_of_error hc
  case h_2 hsp =>
    rcases acquireStep_eq_next h with ⟨-, -, rfl⟩ | ⟨-, h⟩
    · exact counts_of_run hsp trivial
    · cases h
      exact counts_goto hsp trivial
  case h_3 hsp =>
    rw [lineOp_ready _ hx, andThen_next] at h
    cases h
    exact counts_goto hsp trivial
  case h_4 hsp => exact counts_groupStep h hsp fun _ => trivial
  case h_5 hsp => exact counts_groupStep h hsp fun _ => trivial
  case h_6 hsp => exact counts_groupStep h hsp fun _ => trivial
  case h_7 hsp =>
    rw [pixelModeStep_eq_goto hx hp] at h
    cases h
    exact counts_goto hsp ⟨chunkCount_pos hp, rfl, fun hin => absurd hin (by simpa [InTransfer, hx] using hr)⟩
  case h_8 hsp => exact counts_chunkStep h hsp hx (hcounts.at_step hsp)
  case h_9 hsp =>
    obtain ⟨-, rfl⟩ := deselectStep_eq_next h
    exact counts_goto hsp (hcounts.at_step hsp)
  case h_10 hsp =>
    rw [finish_eq_next h]
    exact fun _ => hcounts.at_step hsp
  case h_11 hsp =>
    obtain ⟨-, rfl⟩ := deselectStep_eq_next h
    exact counts_goto hsp trivial
  case h_12 =>
    rw [finish_eq_next h]
    exact counts_of_error (by simp)
  case h_13 => cases h

theorem FlushReach.flushView_eq (h : FlushReach n v t) : flushView t = flushView v := by
  obtain ⟨hfixed, hdw, -, -⟩ := h
  simp only [flushFixed, commandFrame, Prod.mk.injEq, CommandFrame.mk.injEq] at hfixed
  obtain ⟨⟨hparams, -, -, -, -, hasm, hdraw⟩, -, -, -, -, hpb⟩ := hfixed
  simp only [flushView, hparams, hdw, hpb, hdraw, hasm]

theorem FlushReach.closePending_eq (h : FlushReach n v t) : t.closePending = v.closePending :=
  congrArg (fun p => p.2.1) h.fixed

/-- The run of the FLUSH of `u`'s window is at a step or over, and CHUNKS shows what it has done. -/
structure FlushCounts (u s : State) : Prop where
  inv : Inv s
  counts : Counts (chunkCount u) s
  running : s.sp ≠ .idle → flushView s = flushView u ∧ s.closePending = false

/-- A step of the run keeps the account (R213). -/
theorem FlushCounts.step (hdec : decode (asmWords u) = .ok (.flush, rest)) (hv : u.dw.valid = true)
    (h : FlushCounts u s) (hrun : s.sp ≠ .idle) (hstep : step { s with turns := [coopTurn a s] } = .next t) :
    FlushCounts u t := by
  obtain ⟨hview, hc⟩ := h.running hrun
  obtain ⟨op, st, n, hsp⟩ : ∃ op st n, s.sp = .run op st n := by
    cases hsp : s.sp with
    | idle => exact absurd hsp hrun
    | run op st n => exact ⟨op, st, n, rfl⟩
  have hinvt : Inv t := stepKeepsInvariant { s with turns := [coopTurn a s] } t { h.inv with } hstep
  have hasm : s.asm = u.asm := congrArg (·.2.2.2.2) hview
  obtain ⟨v, hexec, hx, hvs, hanswer⟩ := exec_of_coopStep h.inv hsp (by simpa only [asmWords, hasm] using hdec) hc hstep
  have hviewv : flushView v = flushView u := by rw [hvs]; exact hview
  have hcount : chunkCount v = chunkCount u := chunkCount_of_view hviewv
  have hcounts : CountsAt (chunkCount v) v st n := hcount ▸ (h.counts.at_step hsp).of_eq (by rw [hvs]) (by rw [hvs])
    fun hmode hin => .inl (hanswer (hin.resolve_left (by simp [hx])) hmode)
  refine ⟨hinvt, hcount ▸ counts_execFlush hexec (counts_of_run (by rw [hvs]; exact hsp) hcounts) ?_ ?_ hx hinvt.noReply,
    fun hidle => ?_⟩
  · rwa [show v.dw = u.dw from congrArg (·.2.1) hviewv]
  · rw [hvs]
    exact h.inv.params
  · rcases execFlush_reach hexec with hreach | ⟨-, rfl⟩
    · exact ⟨hreach.flushView_eq.trans hviewv, hreach.closePending_eq.trans (by rw [hvs]; exact hc)⟩
    · exact absurd rfl hidle

/-- A FLUSH of a window that completes OK has counted its chunks (R213, R280). -/
theorem flush_counts (hinv : Inv u) (hsp : u.sp = .run op .begin n) (hdec : decode (asmWords u) = .ok (.flush, rest))
    (hc : u.closePending = false) (hv : u.dw.valid = true) {fuel : Nat} {as : List Answer}
    (hrun : drive fuel as u = .next t) (hidle : t.sp = .idle) (hok : t.result = .ok) :
    AllCounted (chunkCount u) t := by
  have hend := drive_keeps (P := FlushCounts u) (fun _ _ _ => FlushCounts.step hdec hv) fuel as u t
    ⟨hinv, counts_of_run hsp trivial, fun _ => ⟨rfl, hc⟩⟩ hrun
  exact hend.counts.of_idle hidle hok

end

/-- Settles O40: the run has the wire form of `flushEvents`, and every step of it keeps the account of CHUNKS. -/
theorem flushRunsToReady : Obligations.FlushRunsToReady := by
  intro s op n rest hinv hsp hdec hst hc hv
  obtain ⟨t, hrun, hidle, hbusy, hstate, hok, hop, hdw, hpb, htrace⟩ := flush_run hinv hsp hdec hst hc hv
  obtain ⟨hissued, htotal⟩ := flush_counts hinv hsp hdec hc hv hrun hidle hok
  refine ⟨by simp [flushTransfers_eq_map], t, hrun, hidle, hbusy, hstate, hok, hop, hdw, hpb, hissued, htotal, ?_⟩
  rw [htrace]
  simp [flushEvents, frameEvents, flushTransfers, windowEvents, groupEvents, txC, txD, casetParams, rasetParams, be16]

end Sys2Proof.Machine


/-!
PROOFS. The other statements of 41_command_encoder: the pixel stream and its chunks (O36, O37), the runs of SLEEP and
WAKE (O42), the init table's placeholders (O26).
-/

namespace Sys2Proof.Machine

/-! ## The pixel stream -/

section
variable {s : State} {n k : Nat}

theorem length_pixelStream (s : State) : (pixelStream s).length = streamLength s.dw := by
  simp [pixelStream_eq_map]

theorem streamLength_even (dw : Window) : streamLength dw % 2 = 0 := by
  rw [streamLength, Nat.mul_assoc, Nat.mul_mod_right]

/-- A window in the panel streams no more than the panel's pixels (R209). -/
theorem streamLength_le_panel (hin : s.dw.inPanel s.params = true) :
    streamLength s.dw ≤ 2 * s.params.panelW * s.params.panelH := by
  obtain ⟨-, hX, -, hY⟩ := (inPanel_iff _ _).1 hin
  have hw : s.dw.width ≤ s.params.panelW := by simp only [Window.width]; omega
  have hh : s.dw.height ≤ s.params.panelH := by simp only [Window.height]; omega
  exact Nat.mul_le_mul (Nat.mul_le_mul_left 2 hw) hh

theorem getElem?_pixelStream (hn : n < (pixelStream s).length) : (pixelStream s)[n]? = some (streamByte s n) := by
  rw [length_pixelStream] at hn
  rw [pixelStream_eq_map, List.getElem?_map, List.getElem?_range hn, Option.map_some]

/-- A chunk is a slice of the stream (R212, R214). -/
theorem chunkBytes_eq_slice (s : State) (k : Nat) : chunkBytes s k =
    ((pixelStream s).drop (k * s.params.maxChunkBytes)).take
      (min ((k + 1) * s.params.maxChunkBytes) (streamLength s.dw) - k * s.params.maxChunkBytes) := by
  have hstop := Nat.min_le_right ((k + 1) * s.params.maxChunkBytes) (streamLength s.dw)
  refine List.ext_getElem? fun j => ?_
  by_cases hj : j < min ((k + 1) * s.params.maxChunkBytes) (streamLength s.dw) - k * s.params.maxChunkBytes
  · rw [List.getElem?_take_of_lt hj, List.getElem?_drop, getElem?_pixelStream (by rw [length_pixelStream]; omega)]
    simp [chunkBytes, hj]
  · rw [List.getElem?_eq_none (by rw [chunkBytes_length]; omega),
      List.getElem?_eq_none (by rw [List.length_take]; omega)]

/-! ## The chunk plan -/

/-- Every chunk but the last ends inside the stream (R212). -/
theorem chunk_ends_inside (hp : s.params.wellFormed = true) (hk : k + 1 < chunkCount s) :
    (k + 1) * s.params.maxChunkBytes < streamLength s.dw := by
  have hm := maxChunk_bounds hp
  exact mul_lt_of_lt_ceilDiv (by omega) hk

/-- The chunks reach the stream's end (R212). -/
theorem streamLength_le_chunks (hp : s.params.wellFormed = true) :
    streamLength s.dw ≤ chunkCount s * s.params.maxChunkBytes := by
  have hm := maxChunk_bounds hp
  have hlt := Nat.lt_div_mul_add (a := streamLength s.dw + s.params.maxChunkBytes - 1)
    (b := s.params.maxChunkBytes) (by omega)
  simp only [chunkCount, ceilDiv]
  omega

theorem chunkStart_even (hp : s.params.wellFormed = true) (k : Nat) : k * s.params.maxChunkBytes % 2 = 0 := by
  obtain ⟨-, -, heven, -⟩ := maxChunk_bounds hp
  rw [Nat.mul_mod, heven, Nat.mul_zero, Nat.zero_mod]

theorem chunkBytes_length_of_not_last (hp : s.params.wellFormed = true) (hk : k + 1 < chunkCount s) :
    (chunkBytes s k).length = s.params.maxChunkBytes := by
  rw [chunkBytes_length, Nat.min_eq_left (chunk_ends_inside hp hk).le, Nat.succ_mul, Nat.add_sub_cancel_left]

theorem chunkBytes_length_of_last (hp : s.params.wellFormed = true) (hk : k + 1 = chunkCount s) :
    (chunkBytes s k).length = streamLength s.dw - k * s.params.maxChunkBytes := by
  rw [chunkBytes_length, hk, Nat.min_eq_right (streamLength_le_chunks hp)]

/-- The last chunk is neither empty nor too long, and its length is even like the stream's and the chunks' (R209,
R212). -/
theorem last_chunk_bounds (hp : s.params.wellFormed = true) (hk : k + 1 = chunkCount s) :
    2 ≤ streamLength s.dw - k * s.params.maxChunkBytes ∧
      streamLength s.dw - k * s.params.maxChunkBytes ≤ s.params.maxChunkBytes ∧
      (streamLength s.dw - k * s.params.maxChunkBytes) % 2 = 0 := by
  have hm := maxChunk_bounds hp
  have hstart : k * s.params.maxChunkBytes < streamLength s.dw := mul_lt_of_lt_ceilDiv (by omega) (Nat.lt_of_succ_le hk.le)
  have hend := streamLength_le_chunks hp
  rw [← hk, Nat.succ_mul] at hend
  have hlen := streamLength_even s.dw
  have heven := chunkStart_even hp k
  omega

theorem chunkBytes_length_even (hp : s.params.wellFormed = true) (hk : k < chunkCount s) :
    (chunkBytes s k).length % 2 = 0 := by
  rcases Nat.lt_or_eq_of_le (Nat.succ_le_of_lt hk) with hlt | hlast
  · rw [chunkBytes_length_of_not_last hp hlt]
    exact (maxChunk_bounds hp).2.2.1
  · rw [chunkBytes_length_of_last hp hlast]
    exact (last_chunk_bounds hp hlast).2.2

end

/-- Settles O36: the stream is `streamByte` at every place below its length. -/
theorem streamByteMatchesRowMajorStream : Obligations.StreamByteMatchesRowMajorStream := by
  intro s hin
  have heven := streamLength_even s.dw
  have hpos := streamLength_pos s.dw
  refine ⟨length_pixelStream s, ?_, ?_, ?_, fun n hn => getElem?_pixelStream hn⟩ <;> rw [length_pixelStream]
  · exact heven
  · omega
  · exact streamLength_le_panel hin

/-- Settles O37: each chunk is a slice, and the slices' lengths are those of the plan. -/
theorem chunksPartitionTheStream : Obligations.ChunksPartitionTheStream := by
  intro s _ hp m len t
  have hlen : len = streamLength s.dw := length_pixelStream s
  have hpos : 0 < t := chunkCount_pos hp
  have hlast : t - 1 + 1 = chunkCount s := Nat.sub_add_cancel hpos
  obtain ⟨htwo, hfit, -⟩ := last_chunk_bounds hp hlast
  rw [← hlen] at htwo hfit
  refine ⟨by rw [hlen]; rfl, fun k _ => by rw [hlen]; exact chunkBytes_eq_slice s k, flatMap_chunkBytes hp,
    fun k => chunkBytes_length_of_not_last hp, ?_, htwo, hfit, fun k => chunkBytes_length_even hp⟩
  rw [hlen]
  exact chunkBytes_length_of_last hp hlast

/-! ## The run of a SLEEP or a WAKE -/

/-- Where SLEEP and WAKE go on the answer to their command byte (R170, R181). -/
def powerAnswered : Answer → SeqStep
  | .ok => .deselect
  | .err => .abortDeselect

section
variable {i : Instr} {g : Group} {cmd : Byte} {ms : Half} {before after : DriverState} {u s : State} {st : SeqStep}
  {n : Nat} {tr : List Event} {as : List Answer}

theorem PowerCommand.of_params {t : State} (hi : PowerCommand u i g cmd ms before after) (h : t.params = u.params) :
    PowerCommand t i g cmd ms before after := by
  simpa only [PowerCommand, h] using hi

/-- The command is one of the two in every state, whatever bytes and delays its parameters give. -/
theorem PowerCommand.exists_at (hi : PowerCommand u i g cmd ms before after) (t : State) :
    ∃ cmd' ms', PowerCommand t i g cmd' ms' before after := by
  rcases hi with ⟨rfl, rfl, -, -, rfl, rfl⟩ | ⟨rfl, rfl, -, -, rfl, rfl⟩
  · exact ⟨_, _, .inl ⟨rfl, rfl, rfl, rfl, rfl, rfl⟩⟩
  · exact ⟨_, _, .inr ⟨rfl, rfl, rfl, rfl, rfl, rfl⟩⟩

/-- STATE keeps its value until SLEEP or WAKE completes (R290, R295). -/
theorem RunAt.power_state (hi : PowerCommand u i g cmd ms before after) (h : RunAt i u st n tr s) (hst : st ≠ .begin) :
    s.state = before := by
  obtain ⟨op, hsp⟩ := h.sp
  obtain ⟨rest, hdec⟩ := h.decoded
  have hcommand := h.inv.command
  have hat : stateAt i st s.state = true := by
    simp only [commandOk, hsp, hdec, Bool.and_eq_true] at hcommand
    obtain ⟨-, ⟨⟨-, hat⟩, -⟩, -⟩ := hcommand
    exact hat
  rcases hi with ⟨rfl, -, -, -, rfl, -⟩ | ⟨rfl, -, -, -, rfl, -⟩ <;>
    simpa [stateAt, hst] using hat

/-- The frame opens, up to the command byte's request (R176, R179, R289, R294). -/
theorem RunAt.powerOpens (hi : PowerCommand u i g cmd ms before after) (h : RunAt i u .begin n tr s)
    (hst : s.state = before) : ∃ t, AnsweredRun 5 as s as t ∧
      RunAt i u (.group g .cmdByte) 0 (tr ++ (if u.params.sharedBus then [.lock] else []) ++ [.cs false]) t := by
  obtain ⟨op, hsp⟩ := h.sp
  obtain ⟨t₁, hrun₁, h₁⟩ := h.advance (as := as) ((hi.of_params h.params).exec_begin hsp hst) rfl h.lockFree h.view h.trace
  obtain ⟨t₂, hrun₂, h₂⟩ := h₁.acquire (as := as) fun t ⟨op, hsp⟩ => by
    obtain ⟨_, _, ht⟩ := hi.exists_at t
    exact ht.exec_acquire hsp
  obtain ⟨op₂, hsp₂⟩ := h₂.sp
  obtain ⟨t₃, hrun₃, h₃⟩ := h₂.select (as := as) ((hi.of_params h₂.params).exec_select hsp₂) rfl
  obtain ⟨op₃, hsp₃⟩ := h₃.sp
  obtain ⟨t₄, hrun₄, h₄⟩ := h₃.cmdMode (as := as) ((hi.of_params h₃.params).exec_group hsp₃)
  exact ⟨t₄, hrun₁.trans (hrun₂.trans (hrun₃.trans hrun₄)), h₄⟩

/-- The command byte, requested and answered: OK goes on to the end of the frame, ERR to AbortFrame (R170, R180). -/
theorem RunAt.powerByte (a : Answer) (hi : PowerCommand u i g cmd ms before after)
    (h : RunAt i u (.group g .cmdByte) n tr s) : ∃ t, AnsweredRun 2 (a :: as) s as t ∧
      RunAt i u (powerAnswered a) 0 (tr ++ [.tx .command [cmd] a]) t := by
  have hbuf := maxChunk_bounds h.wellFormed
  have hexec {t : State} (hat : AtStep t (.group g .cmdByte) n) (ht : t.params = u.params) :
      exec i t = groupStep g .cmdByte 0 cmd [] (fun t => .next (goto .deselect 0 t)) t := by
    obtain ⟨op, hsp⟩ := hat
    exact (hi.of_params ht).exec_group hsp
  refine h.transfer (as := a :: as) (b := false) (c := s.chunksIssued) rfl ⟨Nat.one_pos, ?_⟩ ?_ h.view
    fun t hat hview hr => ?_
  · rw [List.length_singleton]
    omega
  · rw [hexec h.sp h.params, groupStep, transferStep_none h.inv.noReply]
  · rw [hexec hat (congrArg RunView.params hview), groupStep]
    cases a with
    | ok => rw [transferStep_ok hr, if_pos rfl, powerAnswered]
    | err => rw [transferStep_err hr, powerAnswered]

/-- The end after OK: the frame closes, the delay passes, and STATE changes (R217, R289, R294). -/
theorem RunAt.powerEnds (hi : PowerCommand u i g cmd ms before after) (h : RunAt i u .deselect n tr s) :
    ∃ t, AnsweredRun 4 as s as t ∧ t.sp = .idle ∧ t.state = after ∧ t.result = .ok ∧ runView t = runView u ∧
      t.trace = tr ++ [.cs true] ++ (if u.params.sharedBus then [.unlock] else []) ++ waitEvents ms := by
  obtain ⟨op, hsp⟩ := h.sp
  obtain ⟨t₁, hrun₁, h₁⟩ := h.deselect (as := as) rfl ((hi.of_params h.params).exec_deselect hsp)
  obtain ⟨op₁, hsp₁⟩ := h₁.sp
  obtain ⟨hrun₂, -⟩ := h₁.pause (as := as) (hold := .postDelay) (k := 0) (w := releaseLock t₁) (after := finish after .ok)
    ((hi.of_params h₁.params).exec_release hsp₁) rfl (h₁.lockFree_releaseLock rfl) h₁.view
    (fun t ⟨op, hsp⟩ ht => (hi.of_params (congrArg RunView.params ht)).exec_postDelay hsp) (fun t => rfl) rfl
  exact ⟨_, hrun₁.trans hrun₂, rfl, rfl, rfl, h₁.view, by rw [← h₁.releaseLock_trace rfl]; rfl⟩

/-- The end after ERR: AbortFrame, no delay, and STATE as it was (R181, R291, R296). -/
theorem RunAt.powerAborts (hi : PowerCommand u i g cmd ms before after) (h : RunAt i u .abortDeselect n tr s) :
    ∃ t, AnsweredRun 2 as s as t ∧ t.sp = .idle ∧ t.state = before ∧ t.result = .transportError ∧
      runView t = runView u ∧ t.trace = tr ++ [.cs true] ++ if u.params.sharedBus then [.unlock] else [] := by
  obtain ⟨op, hsp⟩ := h.sp
  obtain ⟨t₁, hrun₁, h₁⟩ := h.deselect (as := as) rfl ((hi.of_params h.params).exec_abortDeselect hsp)
  obtain ⟨op₁, hsp₁⟩ := h₁.sp
  obtain ⟨hrun₂, -⟩ := h₁.core (as := as) ((hi.of_params h₁.params).exec_abortRelease hsp₁)
  have hstate := h₁.power_state hi (by simp)
  exact ⟨_, hrun₁.trans hrun₂, rfl, hstate, rfl, h₁.view, h₁.releaseLock_trace rfl⟩

end

/-- A run in which every transfer is answered OK may be given the first of those answers. -/
theorem drive_ok_cons (fuel : Nat) (s : State) : drive fuel [.ok] s = drive fuel [] s := by
  induction fuel generalizing s with
  | zero => rfl
  | succ fuel ih =>
    simp only [drive, List.headD_cons, List.headD_nil, List.tail_cons, List.tail_nil, ite_self]
    split
    · rfl
    · split
      · split_ifs
        · rfl
        · exact ih _
      · rfl
      · rfl

/-- Settles O42: both commands by one account, the answer to the command byte telling which way they end. -/
theorem sleepAndWakeRun : Obligations.SleepAndWakeRun := by
  intro s op n rest i cmd ms before after hinv hsp hdec hc hst hcmd
  obtain ⟨g, hi⟩ : ∃ g, PowerCommand s i g cmd ms before after := by
    rcases hcmd with ⟨hi, hcmd⟩ | ⟨hi, hcmd⟩
    · exact ⟨.slpin, .inl ⟨hi, rfl, hcmd⟩⟩
    · exact ⟨.slpout, .inr ⟨hi, rfl, hcmd⟩⟩
  have h₀ := RunAt.start hinv hsp hdec hc
  have hview {t : State} (ht : runView t = runView s) : t.pb = s.pb ∧ t.dw = s.dw :=
    ⟨congrArg RunView.pb ht, congrArg RunView.dw ht⟩
  constructor
  · obtain ⟨t₁, hrun₁, h₁⟩ := h₀.powerOpens (as := [.ok]) hi hst
    obtain ⟨t₂, hrun₂, h₂⟩ := h₁.powerByte (as := []) .ok hi
    obtain ⟨t, hrun₃, hidle, hstate, hresult, ht, htrace⟩ := h₂.powerEnds (as := []) hi
    have hdrive := (hrun₁.trans (hrun₂.trans hrun₃)).drive_eq hsp hidle (by simp only [commandBound]; omega)
    refine ⟨t, (drive_ok_cons _ s).symm.trans hdrive, hidle, hstate, hresult, (hview ht).1, (hview ht).2, ?_⟩
    rw [htrace]
    simp [powerEvents, frameEvents, txC]
  · obtain ⟨t₁, hrun₁, h₁⟩ := h₀.powerOpens (as := [.err]) hi hst
    obtain ⟨t₂, hrun₂, h₂⟩ := h₁.powerByte (as := []) .err hi
    obtain ⟨t, hrun₃, hidle, hstate, hresult, ht, htrace⟩ := h₂.powerAborts (as := []) hi
    have hdrive := (hrun₁.trans (hrun₂.trans hrun₃)).drive_eq hsp hidle (by simp only [commandBound]; omega)
    refine ⟨t, hdrive, hidle, hstate, hresult, (hview ht).1, (hview ht).2, ?_⟩
    rw [htrace]
    simp [frameEvents]

/-! ## The init table's placeholders -/

/-- `base[ORIENT] + 8 * BGR` stays below 256, so the byte holds it (R203). -/
theorem madctl_toNat : ∀ (o : BitVec 2) (b : Bool),
    (madctl o b).toNat = [0x00, 0x60, 0xC0, 0xA0].getD o.toNat 0 + 8 * b.toNat := by
  decide

/-- Settles O26: each form of a table byte by its own arm, and MADCTL's value orientation by orientation. -/
theorem placeholdersResolveFromConfiguration : Obligations.PlaceholdersResolveFromConfiguration :=
  fun _ => ⟨fun _ => rfl, fun _ => rfl, rfl, rfl, madctl_toNat⟩

end Sys2Proof.Machine

/-!
PROOFS. The statements of 42_framebuffer: the code a command's check gives (O18, O19), the dirty window (O24), and what
WRITE_PIXEL, DRAW_IMAGE and CLEAR do and leave unchanged (O20 to O23).
-/

namespace Sys2Proof.Machine

/-! ## The check of a command -/

section
variable {i : Instr} {s : State}

theorem check_uninit (h : s.state = .uninit) (hi : needsInit i = true) : check i s = .initError := by
  simp [check, h, hi]

/-- In READY and in SLEEPING the matrix of R327 is tested, then the bounds (R325). -/
theorem check_initialized (h : s.state = .ready ∨ s.state = .sleeping) : check i s =
    if validIn i s.state = false then .invalidState
    else if inBounds s.params i = false then .outOfBounds
    else .ok := by
  rcases h with h | h <;> simp [check, h]

/-- A command without bounds of its own, by the matrix of R327. -/
theorem check_of_inBounds (h : s.state = .ready ∨ s.state = .sleeping) (hb : inBounds s.params i = true) :
    check i s = if validIn i s.state = true then .ok else .invalidState := by
  rw [check_initialized h]
  by_cases hv : validIn i s.state = true <;> simp [hv, hb]

/-- A command that the matrix of R327 allows, by its bounds. -/
theorem check_of_validIn (h : s.state = .ready ∨ s.state = .sleeping) (hv : validIn i s.state = true) :
    check i s = if inBounds s.params i = true then .ok else .outOfBounds := by
  rw [check_initialized h]
  by_cases hb : inBounds s.params i = true <;> simp [hv, hb]

theorem check_close_ok (h : s.state ≠ .closed) : check .close s = .ok := by
  simp [check, h, needsInit, validIn, inBounds]

theorem check_writePixel {color x y : Half} (h : s.state = .ready ∨ s.state = .sleeping) :
    check (.writePixel color x y) s =
      if x.toNat < s.params.panelW ∧ y.toNat < s.params.panelH then .ok else .outOfBounds := by
  rw [check_of_validIn h (by simpa [validIn] using h)]
  simp only [inBounds, Bool.and_eq_true, decide_eq_true_eq]

/-- An image's bounds, with those of an image without pixels (R249, R254). -/
theorem check_drawImage {x y w h : Half} (hst : s.state = .ready ∨ s.state = .sleeping) :
    check (.drawImage x y w h) s =
      if x.toNat < s.params.panelW ∧ y.toNat < s.params.panelH ∧ (w.toNat = 0 ∨ h.toNat = 0 ∨
          x.toNat + w.toNat ≤ s.params.panelW ∧ y.toNat + h.toNat ≤ s.params.panelH) then .ok else .outOfBounds := by
  rw [check_of_validIn hst (by simpa [validIn] using hst)]
  simp only [inBounds, imageInPanel_iff, Nat.mul_eq_zero, or_assoc]

theorem check_clear {color : Half} (h : s.state = .ready ∨ s.state = .sleeping) : check (.clear color) s = .ok := by
  rw [check_of_inBounds h rfl, if_pos (by simpa [validIn] using h)]

/-- A command's own words are decoded, so their verdict is its check's (R325). -/
theorem verdictOf_encode (i : Instr) (rest : List Word) (s : State) : verdictOf (encode i ++ rest) s = check i s := by
  rw [verdictOf, decodeEncodeRoundTrip i rest]

/-- CLOSED comes before every other test (R325, R326). -/
theorem verdictOf_closed (ws : List Word) (h : s.state = .closed) : verdictOf ws s = .closedError := by
  unfold verdictOf
  split
  · exact check_closed h
  · exact if_pos h

theorem verdictOf_error {ws : List Word} {e : DecodeError} (h : decode ws = .error e) :
    verdictOf ws s = if s.state = .closed then .closedError else .illegalCommand := by
  rw [verdictOf, h]

end

/-- Settles O18: CLOSED and the decoder's errors first; then, command by command, the check in the states left. -/
theorem checkFollowsPriority : Obligations.CheckFollowsPriority := by
  intro i s rest ws
  refine ⟨verdictOf_closed ws, fun hopen e he => (verdictOf_error he).trans (if_neg hopen), fun huninit => ?uninit,
    fun hst => ?initialized⟩
  all_goals rw [verdictOf_encode]
  case uninit =>
    cases i with
    | init ms o b v => exact check_init_ok huninit
    | close => exact check_close_ok (by simp [huninit])
    | _ => exact check_uninit huninit rfl
  case initialized =>
    cases i with
    | init ms o b v => rcases hst with h | h <;> simp [check_initialized, h, validIn]
    | writePixel color x y => exact check_writePixel hst
    | drawImage x y w h => exact check_drawImage hst
    | clear color => exact check_clear hst
    | flush => simp [check_of_inBounds hst (i := .flush) rfl, validIn]
    | sleep => simp [check_of_inBounds hst (i := .sleep) rfl, validIn]
    | wake => simp [check_of_inBounds hst (i := .wake) rfl, validIn]
    | close => exact check_close_ok (by rcases hst with h | h <;> simp [h])

/-! ## A rejected command's first step -/

section
variable {i : Instr} {s t : State} {op : Byte} {n : Nat}

theorem exec_sleep_begin (hsp : s.sp = .run op .begin n) :
    exec .sleep s = checked .sleep (fun t => .next (goto .acquire 0 t)) s := by simp only [exec, execSleep, hsp]

theorem exec_wake_begin (hsp : s.sp = .run op .begin n) :
    exec .wake s = checked .wake (fun t => .next (goto .acquire 0 t)) s := by simp only [exec, execWake, hsp]

theorem exec_close_begin (hsp : s.sp = .run op .begin n) :
    exec .close s = checked .close (fun t => .next (goto .closeDeselect 0 t)) s := by simp only [exec, execClose, hsp]

/-- Every command but DRAW_IMAGE begins with its check (R246, R270). -/
theorem exec_begin_checked (hsp : s.sp = .run op .begin n) (hi : ∀ x y w h, i ≠ .drawImage x y w h) :
    ∃ body, exec i s = checked i body s := by
  cases i with
  | init ms o b v => exact ⟨_, exec_init_begin hsp⟩
  | writePixel color x y => exact ⟨_, atBegin_begin hsp⟩
  | drawImage x y w h => exact absurd rfl (hi x y w h)
  | clear color => exact ⟨_, atBegin_begin hsp⟩
  | flush => exact ⟨_, exec_flush_begin hsp⟩
  | sleep => exact ⟨_, exec_sleep_begin hsp⟩
  | wake => exact ⟨_, exec_wake_begin hsp⟩
  | close => exact ⟨_, exec_close_begin hsp⟩

/-- A command with an illegal header completes in its first step (R130, R326). -/
theorem runCommand_illegal {e : Byte} (hsp : s.sp = .run op .begin n)
    (he : decode (asmWords s) = .error (.reservedOpcode e) ∨ decode (asmWords s) = .error (.reservedBits e)) :
    runCommand s = .next (complete (if opField s.asm.hdr = 3 then s.asm.verdict
      else if s.state = .closed then .closedError else .illegalCommand) s) := by
  have hverdict : verdictOf (asmWords s) s = if s.state = .closed then .closedError else .illegalCommand :=
    he.elim verdictOf_error verdictOf_error
  have hcomplete : runCommand s = completeIllegal s := by
    rcases he with he | he <;> rw [runCommand, he]
  rw [hcomplete, completeIllegal, hsp, hverdict]
  split_ifs <;> rfl

/-! ## The framebuffer commands' steps -/

/-- The end of a WRITE_PIXEL that its check accepts (R241). -/
def writePixelDone (color x y : Half) (s : State) : State :=
  complete .ok (extendDirty x y x y { s with pb := s.pb.put (pixelIndex s.params x.toNat y.toNat) color })

/-- The end of a DRAW_IMAGE whose verdict is OK (R248, R254). -/
def drawImageDone (x y w h : Half) (s : State) : State :=
  complete .ok (if 0 < w.toNat * h.toNat then extendDirty x y (lastCoord x w) (lastCoord y h) s else s)

/-- The end of a CLEAR that its check accepts (R256). -/
def clearDone (color : Half) (s : State) : State :=
  complete .ok { fillPixels color s with dw := Window.whole s.params }

/-- `t` is where a command with code `code` ends: at `done`, or, rejected, completed with its code alone (R246). -/
def Ends (code : Code) (done s t : State) : Prop := code = .ok ∧ t = done ∨ code ≠ .ok ∧ t = complete code s

theorem exec_writePixel_ends {color x y : Half} (h : exec (.writePixel color x y) s = .next t) :
    Ends (check (.writePixel color x y) s) (writePixelDone color x y s) s t := by
  refine (checked_eq_next (atBegin_eq_next h).2).imp_left fun ⟨hc, hwrite⟩ => ⟨hc, ?_⟩
  obtain ⟨u, hstore, hdone⟩ := andThen_eq_next.1 hwrite
  obtain ⟨-, rfl⟩ := storePixel_eq_next.1 hstore
  cases hdone
  rfl

theorem exec_drawImage_begin {x y w h : Half} (hsp : s.sp = .run op .begin n) : exec (.drawImage x y w h) s =
    .next (if s.asm.verdict = .ok then drawImageDone x y w h s else complete s.asm.verdict s) := by
  rw [exec, execDrawImage, atBegin_begin hsp]
  unfold drawImageDone
  split_ifs <;> rfl

theorem exec_drawImage_ends {x y w h : Half} (hexec : exec (.drawImage x y w h) s = .next t) :
    Ends s.asm.verdict (drawImageDone x y w h s) s t := by
  obtain ⟨op, n, hsp⟩ := (atBegin_eq_next (show execDrawImage x y w h s = .next t from hexec)).1
  rw [exec_drawImage_begin hsp] at hexec
  cases hexec
  by_cases hv : s.asm.verdict = .ok
  · exact .inl ⟨hv, if_pos hv⟩
  · exact .inr ⟨hv, if_neg hv⟩

theorem exec_clear_ends {color : Half} (h : exec (.clear color) s = .next t) :
    Ends (check (.clear color) s) (clearDone color s) s t := by
  refine (checked_eq_next (atBegin_eq_next h).2).imp_left fun ⟨hc, hclear⟩ => ⟨hc, ?_⟩
  cases hclear
  rfl

theorem exec_writePixel_accepted {color x y : Half} (hsp : s.sp = .run op .begin n)
    (hst : s.state = .ready ∨ s.state = .sleeping) (hx : x.toNat < s.params.panelW) (hy : y.toNat < s.params.panelH) :
    exec (.writePixel color x y) s = .next (writePixelDone color x y s) := by
  have hc : check (.writePixel color x y) s = .ok := (check_writePixel hst).trans (if_pos ⟨hx, hy⟩)
  refine (atBegin_begin hsp).trans ((checked_ok hc).trans ?_)
  rw [storePixel_eq_next.2 ⟨pixelIndex_lt hx hy, rfl⟩, andThen_next]
  rfl

theorem exec_clear_accepted {color : Half} (hsp : s.sp = .run op .begin n)
    (hst : s.state = .ready ∨ s.state = .sleeping) : exec (.clear color) s = .next (clearDone color s) :=
  (atBegin_begin hsp).trans (checked_ok (check_clear hst))

end

/-- Settles O19: a command's check, an image's verdict, or the decoder's error is tested before anything else. -/
theorem rejectedCommandOnlyCompletes : Obligations.RejectedCommandOnlyCompletes := by
  intro s op n hsp
  refine ⟨fun i hi hc => ?check, fun x y w h hv => ?verdict, fun e he => ⟨fun h3 => ?illegal, fun h3 => ?illegalImage⟩⟩
  case check =>
    obtain ⟨body, hexec⟩ := exec_begin_checked hsp hi
    rw [hexec, checked_rejected hc]
  case verdict => rw [exec_drawImage_begin hsp, if_neg hv]
  case illegal => rw [runCommand_illegal hsp he, if_neg h3]
  case illegalImage => rw [runCommand_illegal hsp he, if_pos h3]

/-- Settles O20: the one step of an accepted WRITE_PIXEL, and the pixel it stored. -/
theorem writePixelCompletes : Obligations.WritePixelCompletes := by
  intro color x y s op n hsp hst hx hy
  have hexec := exec_writePixel_accepted (color := color) hsp hst hx hy
  obtain ⟨hread, hdw⟩ := writePixel_ok hexec rfl
  exact ⟨_, hexec, rfl, rfl, rfl, rfl, rfl, Bool.or_false _, hdw, hread⟩

/-- Settles O21: the one step of an accepted DRAW_IMAGE, with and without pixels. -/
theorem drawImageCompletes : Obligations.DrawImageCompletes := by
  intro x y w h s op n hsp hv
  refine ⟨drawImageDone x y w h s, (exec_drawImage_begin hsp).trans (congrArg _ (if_pos hv)), ?_⟩
  unfold drawImageDone
  by_cases hpos : 0 < w.toNat * h.toNat
  · rw [if_pos hpos]
    exact ⟨rfl, rfl, rfl, rfl, rfl, Bool.or_false _, fun _ => rfl, fun h0 => absurd h0 hpos.ne'⟩
  · rw [if_neg hpos]
    exact ⟨rfl, rfl, rfl, rfl, rfl, Bool.or_false _, fun h0 => absurd h0 hpos, fun _ => rfl⟩

/-- The whole panel's last column or row is the one before its side (R6, R256). -/
theorem ofNat_sub_one_toNat_add_one {side : Nat} (h1 : 1 ≤ side) (h2 : side ≤ 65535) :
    (BitVec.ofNat 16 (side - 1)).toNat + 1 = side := by
  rw [BitVec.toNat_ofNat]
  omega

/-- Settles O22: the one step of an accepted CLEAR; its window is the whole panel, as the panel's sides fit. -/
theorem clearCompletes : Obligations.ClearCompletes := by
  intro color s op n hsp hst hp
  obtain ⟨hw, hW, hh, hH⟩ := panel_bounds hp
  exact ⟨clearDone color s, exec_clear_accepted hsp hst, rfl, rfl, rfl, rfl, rfl, Bool.or_false _,
    fun _ hi => readPixel_fillPixels color s hi, rfl, rfl, rfl, ofNat_sub_one_toNat_add_one hw hW,
    ofNat_sub_one_toNat_add_one hh hH⟩

/-! ## What a framebuffer command leaves unchanged -/

section
variable {code : Code} {done s t : State}

/-- The frame of a framebuffer command, and of one that is rejected (R242, R246, R253). -/
def FramebufferFrame (s t : State) : Prop :=
  t = { s with pb := t.pb, dw := t.dw, result := t.result, lastOp := t.lastOp, intDone := t.intDone,
               intErr := t.intErr, busy := t.busy, sp := t.sp } ∧
  (t.result ≠ .ok → t.pb = s.pb ∧ t.dw = s.dw)

/-- A command that ends within the frame when accepted ends within it when rejected. -/
theorem Ends.frame (h : Ends code done s t) (hdone : FramebufferFrame s done) : FramebufferFrame s t := by
  rcases h with ⟨-, rfl⟩ | ⟨-, rfl⟩
  · exact hdone
  · exact ⟨rfl, fun _ => ⟨rfl, rfl⟩⟩

/-- A pixel that the accepted command keeps is kept: rejection changes none (R246). -/
theorem Ends.readPixel {a : Nat} (h : Ends code done s t) (hdone : readPixel done a = readPixel s a) :
    readPixel t a = readPixel s a := by
  rcases h with ⟨-, rfl⟩ | ⟨-, rfl⟩
  · exact hdone
  · rfl

theorem framebufferFrame_ok (pb : Memory 16) (dw : Window) :
    FramebufferFrame s (complete .ok { s with pb := pb, dw := dw }) := ⟨rfl, fun hc => absurd rfl hc⟩

theorem drawImageDone_frame (x y w h : Half) : FramebufferFrame s (drawImageDone x y w h s) := by
  unfold drawImageDone
  split_ifs
  · exact framebufferFrame_ok _ _
  · exact framebufferFrame_ok s.pb s.dw

theorem exec_framebufferFrame {i : Instr}
    (hi : (∃ c x y, i = .writePixel c x y) ∨ (∃ x y w h, i = .drawImage x y w h) ∨ ∃ c, i = .clear c)
    (h : exec i s = .next t) : FramebufferFrame s t := by
  rcases hi with ⟨c, x, y, rfl⟩ | ⟨x, y, w, h', rfl⟩ | ⟨c, rfl⟩
  · exact (exec_writePixel_ends h).frame (framebufferFrame_ok _ _)
  · exact (exec_drawImage_ends h).frame (drawImageDone_frame x y w h')
  · exact (exec_clear_ends h).frame (framebufferFrame_ok _ _)

theorem readPixel_writePixelDone_other {color x y : Half} {a : Nat}
    (ha : a ≠ pixelIndex s.params x.toNat y.toNat) : readPixel (writePixelDone color x y s) a = readPixel s a :=
  congrArg (·.getD (Config.freePixel s.draw a)) (find?_put_other s.pb color ha)

theorem readPixel_drawImageDone (x y w h : Half) (a : Nat) :
    readPixel (drawImageDone x y w h s) a = readPixel s a := by
  unfold drawImageDone
  split_ifs <;> rfl

/-- An address below which every cell lies has not been written. -/
theorem find?_eq_none_of_below {w : Nat} {m : Memory w} {bound a : Nat} (h : ∀ cell ∈ m, cell.1 < bound)
    (ha : bound ≤ a) : m.find? a = none := by
  induction m with
  | nil => rfl
  | cons c m ih =>
    have hc : c.1 ≠ a := (Nat.lt_of_lt_of_le (h c List.mem_cons_self) ha).ne
    rw [Memory.find?, if_neg hc]
    exact ih fun cell hcell => h cell (List.mem_cons_of_mem c hcell)

theorem readPixel_clearDone_outside {color : Half} {a : Nat} (hpb : ∀ cell ∈ s.pb, cell.1 < pbSize s.params)
    (ha : pbSize s.params ≤ a) : readPixel (clearDone color s) a = readPixel s a := by
  have hbefore := find?_eq_none_of_below hpb ha
  have hafter := find?_eq_none_of_below (fillPixels_below color s) ha
  exact congrArg (·.getD (Config.freePixel s.draw a)) (hafter.trans hbefore.symm)

end

/-- Settles O23: each command's one step, accepted or rejected, and the pixels its accepted end keeps. -/
theorem framebufferCommandFrame : Obligations.FramebufferCommandFrame := fun _ _ =>
  ⟨fun _ hi h => exec_framebufferFrame hi h,
    fun _ _ _ h _ ha => (exec_writePixel_ends h).readPixel (readPixel_writePixelDone_other ha),
    fun x y w h hexec a => (exec_drawImage_ends hexec).readPixel (readPixel_drawImageDone x y w h a),
    fun _ h hpb _ ha => (exec_clear_ends h).readPixel (readPixel_clearDone_outside hpb ha)⟩

/-! ## The dirty window -/

theorem extend_of_valid {dw : Window} (hv : dw.valid = true) (ax ay bx by' : Half) : dw.extend ax ay bx by' =
    ⟨true, minHalf dw.x0 ax, minHalf dw.y0 ay, maxHalf dw.x1 bx, maxHalf dw.y1 by'⟩ := if_pos hv

theorem extend_of_empty {dw : Window} (hv : dw.valid ≠ true) (ax ay bx by' : Half) :
    dw.extend ax ay bx by' = ⟨true, ax, ay, bx, by'⟩ := if_neg hv

/-- Settles O24: an empty window becomes the rectangle; a valid one takes the smaller and the larger of each pair of
coordinates. -/
theorem extendIsTheBoundingBox : Obligations.ExtendIsTheBoundingBox := by
  intro dw ax ay bx by'
  refine ⟨extend_valid dw ax ay bx by', ?_⟩
  by_cases hv : dw.valid = true
  · rw [extend_of_valid hv]
    simp only [minHalf_toNat, maxHalf_toNat]
    refine ⟨fun x y hin => by omega, fun l r u d hrect hwindow => ?_⟩
    have := hwindow hv
    omega
  · rw [extend_of_empty hv]
    exact ⟨fun x y hin => hin.resolve_right fun h => hv h.1, fun l r u d hrect _ => hrect⟩

end Sys2Proof.Machine

/-!
PROOFS. The statements of 43_driver_ops: CLOSE step by step (O31), what a step of INIT, SLEEP, WAKE or CLOSE leaves
unchanged (O32), the FLUSH of an empty window (O43), that nothing moves in CLOSED (O49), and a pending close (O56).
-/

namespace Sys2Proof.Machine

/-! ## CLOSE -/

section
variable {s : State} {op : Byte} {n : Nat}

theorem deselectLine_of_deselected (h : s.csN = true) : deselectLine s = s := by
  rw [deselectLine, if_pos h, List.append_nil, ← h]

theorem releaseLock_of_unlocked (h : s.locked = false) : releaseLock s = s := by
  simp only [releaseLock, h, Bool.false_and, Bool.not_false, Bool.and_true, Bool.false_eq_true, if_false,
    List.append_nil]
  rw [← h]

theorem resetHighLine_of_high (h : s.rstN = true) : resetHighLine s = s := by
  rw [resetHighLine, if_pos h, List.append_nil, ← h]

theorem exec_close_deselect (hsp : s.sp = .run op .closeDeselect n) :
    exec .close s = deselectStep .closeRelease s := by simp only [exec, execClose, hsp]

theorem exec_close_release (hsp : s.sp = .run op .closeRelease n) :
    exec .close s = .next (goto .closeResetHigh 0 (releaseLock s)) := by
  simp only [exec, execClose, hsp, releaseStep]

theorem exec_close_resetHigh (hsp : s.sp = .run op .closeResetHigh n) :
    exec .close s = andThen (lineOp resetHighLine s) (finish .closed .ok) := by simp only [exec, execClose, hsp]

end

/-- Settles O31: each of CLOSE's micro-operations finds its line at the level it sets, so it changes SP alone. -/
theorem closeStepByStep : Obligations.CloseStepByStep := by
  intro s op n hx hcs hlk hrst _
  refine ⟨fun hsp hst => ?begin, fun hsp => ?deselect, fun hsp => ?release, fun hsp => ?resetHigh⟩
  case begin => rw [exec_close_begin hsp, checked_ok (check_close_ok hst), goto_of_run hsp]
  case deselect =>
    rw [exec_close_deselect hsp, deselectStep, lineOp_ready _ hx, deselectLine_of_deselected hcs, goto_of_run hsp]
  case release => rw [exec_close_release hsp, releaseLock_of_unlocked hlk, goto_of_run hsp]
  case resetHigh =>
    rw [exec_close_resetHigh hsp, lineOp_ready _ hx, andThen_next, resetHighLine_of_high hrst, finish]

/-! ## The FLUSH of an empty window -/

theorem flushBegin_of_empty {s : State} (h : s.dw.valid = false) :
    flushBegin s = .next (complete .ok { s with chunksIssued := 0, chunksTotal := 0 }) := by
  simp only [flushBegin, h, Bool.false_eq_true, if_false]

/-- Settles O43: the check passes, and FLUSH's first step finds DW empty and completes. -/
theorem emptyFlushTouchesNothing : Obligations.EmptyFlushTouchesNothing := by
  intro s op n hsp hst hdw
  have hend : exec .flush s = .next (complete .ok { s with chunksIssued := 0, chunksTotal := 0 }) := by
    rw [exec_flush_begin hsp, checked_ok (check_flush_ok hst), flushBegin_of_empty hdw]
  exact ⟨_, hend, rfl, rfl, rfl, rfl, rfl, rfl, rfl, rfl, hst, rfl, rfl, rfl⟩

/-! ## A pending close -/

section
variable {s : State}

/-- A close waits only for an executing command (R303). -/
theorem Inv.running_of_close (h : Inv s) (hc : s.closePending = true) : ∃ op st n, s.sp = .run op st n := by
  have hbusy : spStep s.sp false (fun _ => true) = true := h.busy.symm.trans (h.closing hc).1
  obtain ⟨st, n, hsp, -⟩ := h.running_step hbusy
  exact ⟨_, st, n, hsp⟩

/-- With an outstanding transfer the core has no step, whether or not a close waits (R20, R303). -/
theorem coreStep_of_transfer {op : Byte} {st : SeqStep} {n : Nat} (hsp : s.sp = .run op st n)
    (hx : s.xfer.pending = true) : coreStep s = .next s := by
  simp only [coreStep, hsp, (inHold_iff s).2 (.inl hx), hx, or_true, and_self, if_true]

theorem proceed_of_close (hc : s.closePending = true) (hx : s.xfer.pending = false) :
    proceed s = .next (abandon s) := if_pos ⟨hc, hx⟩

/-- With no outstanding transfer a close that waits is the core's next step, in a hold as well (R303). -/
theorem coreStep_of_close {op : Byte} {st : SeqStep} {n : Nat} (hsp : s.sp = .run op st n)
    (hc : s.closePending = true) (hx : s.xfer.pending = false) : coreStep s = .next (abandon s) := by
  simp only [coreStep, hsp, hc, hx, Bool.true_eq_false, Bool.false_eq_true, or_self, and_false, if_false]
  exact proceed_of_close hc hx

/-- A transfer stands in an open frame, with the lock held and the panel out of reset (R161, R179). -/
theorem Inv.levels_of_transfer (h : Inv s) (hx : s.xfer.pending = true) :
    s.csN = false ∧ s.rstN = true ∧ s.locked = true := by
  obtain ⟨st, n, b, hsp, hmode, -⟩ := h.transfer_step hx
  simpa [hsp, spLevels, (stepLevels_of_mode hmode).1] using h.levels

/-- Abandonment in an open frame raises chip-select and releases the lock; reset is high already (R303). -/
theorem abandon_trace_in_frame (hcs : s.csN = false) (hrst : s.rstN = true) (hlk : s.locked = true) :
    (abandon s).trace = s.trace ++ [.cs true] ++ if s.params.sharedBus then [.unlock] else [] := by
  simp only [abandon_trace, hcs, hrst, hlk, Bool.false_eq_true, if_false, if_true, Bool.true_and, List.append_nil]

end

/-- Settles O56: the core waits while the transfer is outstanding; the recorded answer ends it, and what goes on then is
the abandonment. -/
theorem closeWaitsForTheTransfer : Obligations.CloseWaitsForTheTransfer := by
  intro s h hc
  obtain ⟨op, st, n, hsp⟩ := h.running_of_close hc
  refine ⟨fun hx => ⟨coreStep_of_transfer hsp hx, fun a => ?answered⟩, fun hx => ?free⟩
  case answered =>
    obtain ⟨hcs, hrst, hlk⟩ := h.levels_of_transfer hx
    have habandon : transportAnswer a s = .next (abandon (recordAnswer a s)) :=
      (transportAnswer_of_pending a hx).trans (proceed_of_close hc rfl)
    refine ⟨_, habandon, rfl, rfl, rfl, rfl, rfl, rfl, rfl, ?_⟩
    rw [abandon_trace_in_frame (s := recordAnswer a s) hcs hrst hlk, recordAnswer_trace, List.append_assoc s.trace]
    rfl
  case free => exact ⟨_, coreStep_of_close hsp hc hx, rfl, rfl, rfl, rfl, rfl, rfl, rfl⟩

/-! ## CLOSED is final -/

/-- The fields that nothing but block reset writes in CLOSED (R304). -/
def closedView (s : State) :
    DriverState × Bool × Bool × Bool × Bool × List Event × Memory 16 × Memory 8 × Window × Cfg :=
  (s.state, s.csN, s.dc, s.rstN, s.locked, s.trace, s.pb, s.tb, s.dw, s.cfg)

section
variable {i : Instr} {s t : State} {op : Byte} {st : SeqStep} {n : Nat}

theorem state_of_closedView (h : closedView t = closedView s) : t.state = s.state := congrArg (·.1) h

/-- STATE is CLOSED at no step of a legal command but its first (R271, R301). -/
theorem begin_of_closed (hstep : stepOf i s st n = true) (hst : stateAt i st .closed = true) : st = .begin := by
  cases i with
  | writePixel | drawImage | clear => simpa [stepOf] using hstep
  | init | flush | sleep | wake | close =>
    cases st with
    | begin => rfl
    | _ => simp [stateAt, restingState] at hst

/-- In CLOSED no command is past its first step (R301). -/
theorem Inv.closed_begin (h : Inv s) (hst : s.state = .closed) (hsp : s.sp = .run op st n) : st = .begin := by
  cases hd : decode (asmWords s) with
  | ok r =>
    obtain ⟨-, hnames, -⟩ := (commandOk_decoded hsp (rest := r.2) (i := r.1) hd).1 h.command
    simp only [Names, hst, Bool.and_eq_true] at hnames
    exact begin_of_closed hnames.1.1 hnames.1.2
  | error e =>
    obtain ⟨-, ⟨hbegin, -⟩, -⟩ := (commandOk_illegal hsp hd).1 h.command
    exact hbegin

/-- An idle core waits for no answer (R161, R174, R176). -/
theorem Inv.quiet_of_idle (h : Inv s) (hsp : s.sp = .idle) :
    s.xfer.pending = false ∧ s.delay = none ∧ (s.lockReq && !s.locked) = false := by
  have hnone (f : SeqStep → Bool) : spStep s.sp false f ≠ true := by simp [hsp, spStep]
  refine ⟨?_, ?_, ?_⟩
  · exact Bool.eq_false_iff.2 fun hx => hnone _ (h.transfer hx).1
  · exact Option.eq_none_iff_forall_ne_some.2 fun ms hms => hnone _ (h.delaying ms hms).2
  · exact Bool.eq_false_iff.2 fun hl => by
      obtain ⟨hreq, hlk⟩ : s.lockReq = true ∧ s.locked = false := by simpa using hl
      exact hnone _ (h.lockWait hreq hlk)

/-- In CLOSED nothing is waited for, and the lines and the lock are at rest (R300, R303). -/
theorem Inv.closed_rest (h : Inv s) (hst : s.state = .closed) :
    (s.xfer.pending = false ∧ s.delay = none ∧ (s.lockReq && !s.locked) = false) ∧
      s.csN = true ∧ s.rstN = true ∧ s.locked = false := by
  have hlevels := h.levels
  cases hsp : s.sp with
  | idle => exact ⟨h.quiet_of_idle hsp, by simpa [hsp, spLevels] using hlevels⟩
  | run op st n =>
    obtain rfl := h.closed_begin hst hsp
    exact ⟨h.quiet hsp rfl, by simpa [hsp, spLevels, stepLevels] using hlevels⟩

/-- An image's verdict is not OK in CLOSED (R325). -/
theorem verdict_of_closed (hv : verdictOk s = true) (hst : s.state = .closed) : s.asm.verdict ≠ .ok := by
  simpa [verdictOk, hst] using hv

/-- In CLOSED a command completes in its first step and does nothing else (R301, R326). -/
theorem runCommand_of_closed (h : Inv s) (hst : s.state = .closed) (hsp : s.sp = .run op .begin n)
    (hrun : runCommand s = .next t) : ∃ c, t = complete c s := by
  rcases runCommand_eq_next hrun with ⟨i, rest, hd, hexec⟩ | ⟨e, -, -, -, -, rfl⟩
  · obtain ⟨hcheck, hverdict, -⟩ := rejectedCommandOnlyCompletes s op n hsp
    have hcompletes : ∃ c, exec i s = .next (complete c s) := by
      by_cases hi : ∃ x y w h, i = .drawImage x y w h
      · obtain ⟨x, y, w, h', rfl⟩ := hi
        obtain ⟨⟨hop, -⟩, -, hv⟩ := (commandOk_decoded hsp hd).1 h.command
        have hop3 : op = 3 := hop.trans (decode_ok_opcode hd).symm
        exact ⟨_, hverdict x y w h' (verdict_of_closed (hv.resolve_left (not_not.2 hop3)) hst)⟩
      · have hclosed : check i s ≠ .ok := by simp [check_closed hst]
        exact ⟨_, hcheck i (fun x y w h' he => hi ⟨x, y, w, h', he⟩) hclosed⟩
    obtain ⟨c, hc⟩ := hcompletes
    cases hexec.symm.trans hc
    exact ⟨c, rfl⟩
  · exact ⟨_, rfl⟩

theorem abandon_closedView (h : Inv s) (hst : s.state = .closed) : closedView (abandon s) = closedView s := by
  obtain ⟨-, hcs, hrst, hlk⟩ := h.closed_rest hst
  simp only [closedView, abandon_state, hst, abandon_csN, hcs, abandon_dc, abandon_rstN, hrst, abandon_locked, hlk,
    abandon_trace, abandon_pb, abandon_tb, abandon_dw, abandon_cfg, if_true, Bool.false_and, Bool.false_eq_true,
    if_false, List.append_nil]

theorem proceed_closedView (h : Inv s) (hst : s.state = .closed) (hsp : s.sp = .run op st n)
    (hp : proceed s = .next t) : closedView t = closedView s := by
  rcases proceed_eq_next hp with ⟨-, -, rfl⟩ | ⟨-, hrun⟩
  · exact abandon_closedView h hst
  · obtain rfl := h.closed_begin hst hsp
    obtain ⟨c, rfl⟩ := runCommand_of_closed h hst hsp hrun
    rfl

/-- A word accepted in CLOSED reaches the assembler and SP only: a data word's pixels are not stored (R250, R252). -/
theorem accept_closedView {w : Word} (h : Inv s) (hst : s.state = .closed) (ha : accept w s = .next t) :
    closedView t = closedView s := by
  rcases accept_eq_next ha with ⟨-, rfl⟩ | ⟨-, rfl⟩ | ⟨hp, -⟩
  · unfold acceptHeader
    dsimp only
    split <;> rfl
  · unfold acceptOperand
    dsimp only
    split_ifs <;> rfl
  · obtain ⟨-, -, -, -, hverdict, -⟩ := (assemblerOk_data hp).1 h.assembler
    obtain ⟨k, hk⟩ := accept_rejected w hp (verdict_of_closed hverdict hst)
    rw [hk] at ha
    cases ha
    split_ifs <;> rfl

theorem coreStep_closedView (h : Inv s) (hst : s.state = .closed) (hcore : coreStep s = .next t) :
    closedView t = closedView s := by
  rcases coreStep_eq_next hcore with rfl | ⟨w, -, -, -, ha⟩ | ⟨op, st, n, hsp, -, -, hp⟩
  · rfl
  · exact accept_closedView (s := { s with held := none }) { h with } hst ha
  · exact proceed_closedView h hst hsp hp

/-- In CLOSED no answer is waited for, so only the core moves (R301, R304). -/
theorem move_closedView {m : Move} (h : Inv s) (hst : s.state = .closed) (hm : m ≠ .blockReset)
    (hmove : move m s = .next t) : closedView t = closedView s := by
  obtain ⟨⟨hx, hd, hl⟩, -⟩ := h.closed_rest hst
  cases m with
  | core => exact coreStep_closedView h hst hmove
  | blockReset => exact absurd rfl hm
  | rest | lateAnswer => cases hmove; rfl
  | transport a => simp only [move, transportAnswer, hx] at hmove; cases hmove; rfl
  | timer => simp only [move, timerAnswer, hd] at hmove; cases hmove; rfl
  | grant => simp only [move, grantLock, hl] at hmove; cases hmove; rfl

theorem writeCtrl_closedView (v : Word) (hst : s.state = .closed) : closedView (writeCtrl v s) = closedView s := by
  simp only [writeCtrl, closeRequest_of_closed (s := { s with doneIe := v.getLsbD 0 }) hst, ite_self]
  rfl

theorem hostAccess_closedView {a : Access} (h : Inv s) (hst : s.state = .closed) (ha : hostAccess a s = .next t) :
    closedView t = closedView s := by
  cases a with
  | read addr width =>
    simp only [hostAccess] at ha
    obtain ⟨-, -, ha⟩ := guardAccess_eq_next ha
    cases ha
    rfl
  | write addr width v =>
    simp only [hostAccess] at ha
    obtain ⟨-, -, ha⟩ := guardAccess_eq_next ha
    rcases writeReg_eq_next ha with ⟨-, ha⟩ | ⟨-, rfl⟩ | ⟨-, rfl⟩ | ⟨-, -, -, rfl⟩
    · rcases writeCmd_eq_next ha with ⟨-, ha⟩ | ⟨-, rfl⟩
      · exact accept_closedView h hst ha
      · rfl
    · exact writeCtrl_closedView v hst
    · rfl
    · rfl

theorem hostStep_closedView {a : Access} (h : Inv s) (hst : s.state = .closed) (ha : hostStep a s = .next t) :
    closedView t = closedView s := by
  rcases hostStep_eq_next ha with ⟨-, -, rfl⟩ | ⟨-, ha⟩
  · rfl
  · exact hostAccess_closedView h hst ha

/-- The HOST's step keeps the invariant: a refused access has no next state. -/
theorem Inv.hostStep {a : Access} (h : Inv s) (ha : hostStep a s = .next t) : Inv t := by
  rcases hostStep_leads a h with hleads | ⟨addr, width, -, -, ⟨ho, -⟩ | ⟨ho, -⟩⟩
  · exact hleads.of_eq_next ha
  · cases ho.symm.trans ha
  · cases ho.symm.trans ha

end

/-- Settles O49: the HOST's step and the move both keep what CLOSED holds, and in CLOSED the invariant leaves no request
outstanding. -/
theorem closedIsFinal : Obligations.ClosedIsFinal := by
  intro s t h hst hstep hreset
  have hinv : Inv t := stepKeepsInvariant s t h hstep
  obtain ⟨u, m, hm, hmove, rest, hu⟩ := step_parts hstep hreset
  have hhost : Inv u ∧ closedView u = closedView s := by
    rcases hu with rfl | ⟨a, ha⟩
    · exact ⟨{ h with }, rfl⟩
    · have hs : Inv { s with turns := rest } := { h with }
      exact ⟨hs.hostStep ha, hostStep_closedView (s := { s with turns := rest }) hs hst ha⟩
  obtain ⟨huinv, hview⟩ := hhost
  have hust : u.state = .closed := (state_of_closedView hview).trans hst
  have hkept : closedView t = closedView s := (move_closedView huinv hust hm hmove).trans hview
  have htst : t.state = .closed := (state_of_closedView hkept).trans hst
  obtain ⟨⟨hx, -⟩, -⟩ := hinv.closed_rest htst
  simp only [closedView, Prod.mk.injEq] at hkept
  obtain ⟨-, hcs, hdc, hrst, hlk, htrace, hpb, htb, hdw, hcfg⟩ := hkept
  exact ⟨htst, hx, hcs, hdc, hrst, hlk, htrace, hpb, htb, hdw, hcfg⟩

/-! ## The reach of a step of INIT, SLEEP, WAKE or CLOSE -/

/-- The fields that no step of these commands writes, beside those of every command's frame and DW (R272, R289). -/
def driverFixed (s : State) : Bool × Half × Half × Memory 16 := (s.closePending, s.chunksIssued, s.chunksTotal, s.pb)

/-- What a step of a driver command may do to the rest: only a command with a `pulse` moves rst_n (R169), TB changes
only below `n` (R85), and events are only added. -/
structure DriverReach (pulse : Bool) (n : Nat) (s t : State) : Prop where
  fixed : driverFixed t = driverFixed s
  rst : pulse = false → t.rstN = s.rstN
  tb : ∀ a, n ≤ a → t.tb.find? a = s.tb.find? a
  trace : s.trace <+: t.trace

/-- An operation that stays within the reach and stages nothing. -/
def StaysInReach (pulse : Bool) (f : State → Out) : Prop :=
  ∀ ⦃n : Nat⦄ ⦃s t : State⦄, f s = .next t → DriverReach pulse n s t

section
variable {p : Bool} {n k : Nat} {s t u : State} {f : State → Out}

theorem DriverReach.trans (hsu : DriverReach p n s u) (hut : DriverReach p n u t) : DriverReach p n s t where
  fixed := hut.fixed.trans hsu.fixed
  rst := fun hp => (hut.rst hp).trans (hsu.rst hp)
  tb := fun a ha => (hut.tb a ha).trans (hsu.tb a ha)
  trace := hsu.trace.trans hut.trace

/-- An update that adds events and writes nothing else of this but, with a pulse, rst_n. -/
theorem DriverReach.logs (es : List Event) (h : (driverFixed t, t.tb) = (driverFixed s, s.tb))
    (hrst : p = false → t.rstN = s.rstN) (htrace : t.trace = s.trace ++ es) : DriverReach p n s t := by
  obtain ⟨hfixed, htb⟩ := Prod.mk.inj h
  exact ⟨hfixed, hrst, fun _ _ => by rw [htb], es, htrace.symm⟩

/-- An update that writes none of this. -/
theorem DriverReach.silent (h : (driverFixed t, t.tb, t.rstN, t.trace) = (driverFixed s, s.tb, s.rstN, s.trace)) :
    DriverReach p n s t := by
  simp only [Prod.mk.injEq] at h
  obtain ⟨hfixed, htb, hrst, htrace⟩ := h
  exact .logs [] (by rw [hfixed, htb]) (fun _ => hrst) (by rw [htrace, List.append_nil])

theorem requestTransfer_driverReach {bytes : List Byte} (h : requestTransfer bytes s = .next t) :
    DriverReach p bytes.length s t := by
  obtain ⟨-, rfl⟩ := requestTransfer_eq_next.1 h
  exact ⟨rfl, fun _ => rfl, fun a ha => find?_stageFrom_above _ _ (by omega), [], List.append_nil _⟩

theorem StaysInReach.next {upd : State → State} (h : ∀ n s, DriverReach p n s (upd s)) :
    StaysInReach p fun s => .next (upd s) := by
  intro n s t ht
  cases ht
  exact h n s

/-- An operation begun once an answer has been taken. -/
theorem StaysInReach.answered (hf : StaysInReach p f) (h : f { s with reply := none } = .next t) :
    DriverReach p n s t :=
  DriverReach.trans (u := { s with reply := none }) (.silent rfl) (hf h)

theorem StaysInReach.goto (st : SeqStep) (k : Nat) : StaysInReach p fun s => .next (goto st k s) :=
  .next fun _ _ => .silent rfl

theorem StaysInReach.complete (c : Code) : StaysInReach p fun s => .next (complete c s) :=
  .next fun _ _ => .silent rfl

theorem StaysInReach.finish (d : DriverState) (c : Code) : StaysInReach p (finish d c) := .next fun _ _ => .silent rfl

theorem StaysInReach.checked (i : Instr) (hf : StaysInReach p f) : StaysInReach p (checked i f) := by
  intro n s t h
  rcases checked_eq_next h with ⟨-, h⟩ | ⟨-, rfl⟩
  · exact hf h
  · exact .silent rfl

theorem StaysInReach.acquireStep (hf : StaysInReach p f) : StaysInReach p (acquireStep f) := by
  intro n s t h
  rcases acquireStep_eq_next h with ⟨-, -, rfl⟩ | ⟨-, h⟩
  · exact .silent rfl
  · exact (DriverReach.logs (s := s) (t := takeLock { s with reply := none }) _ rfl (fun _ => rfl) rfl).trans (hf h)

theorem StaysInReach.lineOp {line : State → State} (hline : ∀ n s, DriverReach p n s (line s))
    (hf : StaysInReach p f) : StaysInReach p fun s => andThen (lineOp line s) f := by
  intro n s t h
  obtain ⟨u, hu, ht⟩ := andThen_eq_next.1 h
  obtain ⟨-, rfl⟩ := lineOp_eq_next.1 hu
  exact (hline n s).trans (hf ht)

theorem selectLine_driverReach (n : Nat) (s : State) : DriverReach p n s (selectLine s) :=
  .logs _ rfl (fun _ => rfl) rfl

theorem resetLowLine_driverReach (n : Nat) (s : State) : DriverReach true n s (resetLowLine s) :=
  .logs _ rfl (fun hp => by cases hp) rfl

theorem resetHighLine_driverReach (n : Nat) (s : State) : DriverReach true n s (resetHighLine s) :=
  .logs _ rfl (fun hp => by cases hp) rfl

theorem StaysInReach.deselectStep (st : SeqStep) : StaysInReach p (deselectStep st) := by
  intro n s t h
  obtain ⟨-, rfl⟩ := deselectStep_eq_next h
  exact .logs _ rfl (fun _ => rfl) rfl

theorem StaysInReach.releaseStep (hf : StaysInReach p f) : StaysInReach p (releaseStep f) :=
  fun _ s _ h => (DriverReach.logs (s := s) (t := releaseLock s) _ rfl (fun _ => rfl) rfl).trans (hf h)

theorem StaysInReach.delayStep (ms : Half) (hf : StaysInReach p f) : StaysInReach p (delayStep ms f) := by
  intro n s t h
  rcases delayStep_eq_next h with ⟨-, h⟩ | ⟨-, -, rfl⟩ | ⟨-, -, h⟩
  · exact hf.answered h
  · exact .logs _ rfl (fun _ => rfl) rfl
  · exact hf.answered h

theorem StaysInReach.enterDelay (ms : Half) (hold : SeqStep) (k : Nat) (hf : StaysInReach p f) :
    StaysInReach p (enterDelay ms hold k f) := by
  intro n s t h
  rcases enterDelay_eq_next h with ⟨-, h⟩ | ⟨-, rfl⟩
  · exact hf h
  · exact .silent rfl

/-- A step of a group stages the group's bytes when it has no answer to take (R170, R180). -/
theorem groupStep_driverReach {g : Group} {m : GroupStep} {cmd : Byte} {params staged : List Byte}
    (hf : StaysInReach p f) (hstaged : s.reply = none → staged = groupBytes m cmd params)
    (h : groupStep g m k cmd params f s = .next t) : DriverReach p staged.length s t := by
  rcases groupStep_eq_next h with ⟨-, -, rfl⟩ | ⟨-, -, rfl⟩ | ⟨rfl, hr, h⟩ | ⟨rfl, hr, h⟩ | ⟨-, -, -, rfl⟩ | ⟨-, -, h⟩ |
    ⟨-, -, rfl⟩
  · exact .silent rfl
  · exact .silent rfl
  · exact hstaged hr ▸ requestTransfer_driverReach h
  · exact hstaged hr ▸ requestTransfer_driverReach h
  · exact .silent rfl
  · exact hf.answered h
  · exact .silent rfl

/-! ## INIT's reach -/

theorem initEntryAt_staysInReach (k : Nat) : StaysInReach p (initEntryAt k) := by
  intro n s t h
  rcases initEntryAt_eq_next h with ⟨-, rfl⟩ | ⟨-, rfl⟩ <;> exact .silent rfl

/-- What INIT stages at entry `n` of its table is the entry's group (R201, R204). -/
theorem stagedBytes_init_group {ms : Half} {o : BitVec 2} {b v : Bool} {op : Byte} {m : GroupStep} {e : InitEntry}
    (hsp : s.sp = .run op (.group .initEntry m) n) (he : s.params.initTable[n]? = some e) (hr : s.reply = none) :
    stagedBytes (.init ms o b v) s = groupBytes m (resolveCmd s e.cmd) (e.params.map (resolveParam s)) := by
  cases m <;> simp only [stagedBytes, hr, hsp, he, groupBytes]

theorem initGroup_driverReach {ms : Half} {o : BitVec 2} {b v : Bool} {op : Byte} {m : GroupStep}
    (hsp : s.sp = .run op (.group .initEntry m) n) (h : initGroup m n s = .next t) :
    DriverReach p (stagedBytes (.init ms o b v) s).length s t := by
  unfold initGroup at h
  split at h
  · cases h
  next e he =>
    split at h
    · exact StaysInReach.delayStep _ (initEntryAt_staysInReach _) h
    · exact groupStep_driverReach (StaysInReach.enterDelay _ _ _ (initEntryAt_staysInReach _))
        (stagedBytes_init_group hsp he) h

theorem initOpen_staysInReach : StaysInReach p initOpen := .next fun _ _ => .silent rfl

theorem initBegin_staysInReach (o : BitVec 2) (b v : Bool) : StaysInReach p (initBegin o b v) :=
  .next fun _ _ => .silent rfl

/-- INIT's arms in order (R272); its reset pulse moves rst_n. -/
theorem execInit_driverReach {ms : Half} {o : BitVec 2} {b v : Bool} (h : execInit ms o b v s = .next t) :
    DriverReach true (stagedBytes (.init ms o b v) s).length s t := by
  unfold execInit at h
  split at h
  case h_1 => exact StaysInReach.checked _ (initBegin_staysInReach o b v) h
  case h_2 => exact StaysInReach.lineOp resetLowLine_driverReach (.enterDelay _ _ _ (.goto .resetHigh 0)) h
  case h_3 => exact StaysInReach.delayStep _ (.goto _ _) h
  case h_4 => exact StaysInReach.lineOp resetHighLine_driverReach (.enterDelay _ _ _ initOpen_staysInReach) h
  case h_5 => exact StaysInReach.delayStep _ initOpen_staysInReach h
  case h_6 => exact StaysInReach.acquireStep (.goto _ _) h
  case h_7 => exact StaysInReach.lineOp selectLine_driverReach (initEntryAt_staysInReach 0) h
  case h_8 hsp => exact initGroup_driverReach hsp h
  case h_9 => exact StaysInReach.deselectStep _ h
  case h_10 => exact StaysInReach.releaseStep (.enterDelay _ _ _ (.finish _ _)) h
  case h_11 => exact StaysInReach.delayStep _ (.finish _ _) h
  case h_12 => exact StaysInReach.deselectStep _ h
  case h_13 => exact StaysInReach.releaseStep (.finish _ _) h
  case h_14 => cases h

/-! ## The reach of SLEEP, WAKE and CLOSE -/

theorem stagedBytes_sleep_group {op : Byte} {m : GroupStep} (hsp : s.sp = .run op (.group .slpin m) n)
    (hr : s.reply = none) : stagedBytes .sleep s = groupBytes m s.params.bytes.slpin [] := by
  cases m <;> simp only [stagedBytes, hr, hsp, groupBytes]

theorem stagedBytes_wake_group {op : Byte} {m : GroupStep} (hsp : s.sp = .run op (.group .slpout m) n)
    (hr : s.reply = none) : stagedBytes .wake s = groupBytes m s.params.bytes.slpout [] := by
  cases m <;> simp only [stagedBytes, hr, hsp, groupBytes]

/-- SLEEP's arms in order (R289); none moves rst_n. -/
theorem execSleep_driverReach (h : execSleep s = .next t) : DriverReach false (stagedBytes .sleep s).length s t := by
  unfold execSleep at h
  split at h
  case h_1 => exact StaysInReach.checked _ (.goto _ _) h
  case h_2 => exact StaysInReach.acquireStep (.goto _ _) h
  case h_3 => exact StaysInReach.lineOp selectLine_driverReach (.goto _ _) h
  case h_4 hsp => exact groupStep_driverReach (.goto _ _) (stagedBytes_sleep_group hsp) h
  case h_5 => exact StaysInReach.deselectStep _ h
  case h_6 => exact StaysInReach.releaseStep (.enterDelay _ _ _ (.finish _ _)) h
  case h_7 => exact StaysInReach.delayStep _ (.finish _ _) h
  case h_8 => exact StaysInReach.deselectStep _ h
  case h_9 => exact StaysInReach.releaseStep (.complete _) h
  case h_10 => cases h

/-- WAKE's arms in order (R294); none moves rst_n. -/
theorem execWake_driverReach (h : execWake s = .next t) : DriverReach false (stagedBytes .wake s).length s t := by
  unfold execWake at h
  split at h
  case h_1 => exact StaysInReach.checked _ (.goto _ _) h
  case h_2 => exact StaysInReach.acquireStep (.goto _ _) h
  case h_3 => exact StaysInReach.lineOp selectLine_driverReach (.goto _ _) h
  case h_4 hsp => exact groupStep_driverReach (.goto _ _) (stagedBytes_wake_group hsp) h
  case h_5 => exact StaysInReach.deselectStep _ h
  case h_6 => exact StaysInReach.releaseStep (.enterDelay _ _ _ (.finish _ _)) h
  case h_7 => exact StaysInReach.delayStep _ (.finish _ _) h
  case h_8 => exact StaysInReach.deselectStep _ h
  case h_9 => exact StaysInReach.releaseStep (.complete _) h
  case h_10 => cases h

/-- CLOSE's arms in order (R299): it stages nothing, and its ResetHigh moves rst_n. -/
theorem execClose_driverReach : StaysInReach true execClose := by
  intro n s t h
  unfold execClose at h
  split at h
  case h_1 => exact StaysInReach.checked _ (.goto _ _) h
  case h_2 => exact StaysInReach.deselectStep _ h
  case h_3 => exact StaysInReach.releaseStep (.goto _ _) h
  case h_4 => exact StaysInReach.lineOp resetHighLine_driverReach (.finish _ _) h
  case h_5 => cases h

/-- The parts of the state a transfer or a delay would change. -/
def requestView (s : State) : Memory 8 × Xfer × Bool × Option Half := (s.tb, s.xfer, s.dc, s.delay)

/-- CLOSE requests no transfer and no delay (R299). -/
theorem execClose_keeps_requests : Keeps requestView execClose := by
  intro s t h
  unfold execClose at h
  split at h
  case h_1 =>
    rcases checked_eq_next h with ⟨-, h⟩ | ⟨-, rfl⟩
    · cases h
      rfl
    · rfl
  case h_2 =>
    obtain ⟨-, rfl⟩ := deselectStep_eq_next h
    rfl
  case h_3 =>
    cases h
    rfl
  case h_4 =>
    obtain ⟨u, hu, ht⟩ := andThen_eq_next.1 h
    obtain ⟨-, rfl⟩ := lineOp_eq_next.1 hu
    cases ht
    rfl
  case h_5 => cases h

/-! ## The frame of a driver command -/

/-- The driver commands but FLUSH, which has a frame of its own (O33). -/
abbrev IsDriverCommand (i : Instr) : Prop := (∃ ms o b v, i = .init ms o b v) ∨ i = .sleep ∨ i = .wake ∨ i = .close

theorem exec_driverReach {i : Instr} (hi : IsDriverCommand i) (h : exec i s = .next t) :
    DriverReach true (stagedBytes i s).length s t := by
  rcases hi with ⟨ms, o, b, v, rfl⟩ | rfl | rfl | rfl
  · exact execInit_driverReach h
  · exact { execSleep_driverReach h with rst := nofun }
  · exact { execWake_driverReach h with rst := nofun }
  · exact execClose_driverReach h

/-- Only INIT and CLOSE move rst_n (R169, R299). -/
theorem exec_keeps_rstN {i : Instr} (hi : IsDriverCommand i) (hinit : ∀ ms o b v, i ≠ .init ms o b v)
    (hclose : i ≠ .close) (h : exec i s = .next t) : t.rstN = s.rstN := by
  rcases hi with ⟨ms, o, b, v, rfl⟩ | rfl | rfl | rfl
  · exact absurd rfl (hinit ms o b v)
  · exact (execSleep_driverReach h).rst rfl
  · exact (execWake_driverReach h).rst rfl
  · exact absurd rfl hclose

/-- CFG changes in INIT's first step only (R273). -/
theorem exec_cfg_cases {i : Instr} (h : exec i s = .next t) :
    t.cfg = s.cfg ∨ (∃ ms o b v, i = .init ms o b v) ∧ ∃ n, AtStep s .begin n := by
  rcases exec_effect h with (he | hc) | ⟨ms, o, b, v, rfl, hbegin, -⟩
  · exact .inl (congrArg (·.1.cfg) he)
  · exact .inl hc.cfg
  · exact .inr ⟨⟨ms, o, b, v, rfl⟩, hbegin⟩

/-- A command that does not write DW leaves it alone (R43). -/
theorem exec_keeps_dw {i : Instr} (hi : writesWindow i = false) (h : exec i s = .next t) : t.dw = s.dw := by
  rcases exec_effect h with (he | hc) | ⟨ms, o, b, v, rfl, -, -, -, ht⟩
  · exact congrArg (·.1.dw) he
  · exact hc.dw.resolve_right (by simp [hi])
  · exact congrArg (·.1.dw) ht

theorem writesWindow_of_driverCommand {i : Instr} (hi : IsDriverCommand i) : writesWindow i = false := by
  rcases hi with ⟨ms, o, b, v, rfl⟩ | rfl | rfl | rfl <;> rfl

/-- States that agree on what these commands do not write differ in what they may write only. -/
theorem eq_of_driverFixed (hframe : commandFrame t = commandFrame s) (hfixed : driverFixed t = driverFixed s)
    (hdw : t.dw = s.dw) :
    t = { s with state := t.state, busy := t.busy, result := t.result, lastOp := t.lastOp, locked := t.locked,
                 intDone := t.intDone, intErr := t.intErr, cfg := t.cfg, csN := t.csN, dc := t.dc, rstN := t.rstN,
                 sp := t.sp, xfer := t.xfer, delay := t.delay, lockReq := t.lockReq, reply := t.reply, tb := t.tb,
                 trace := t.trace } := by
  obtain ⟨⟩ := s
  obtain ⟨⟩ := t
  simp only [driverFixed, commandFrame, Prod.mk.injEq, CommandFrame.mk.injEq] at hframe hfixed hdw
  obtain ⟨rfl, rfl, rfl, rfl, rfl, rfl, rfl⟩ := hframe
  obtain ⟨rfl, rfl, rfl, rfl⟩ := hfixed
  obtain rfl := hdw
  rfl

end

/-- Settles O32: every command's frame, DW and CFG by the commands' effects, and the reach of these four commands. -/
theorem driverCommandFrame : Obligations.DriverCommandFrame := by
  intro i s t hi h
  have hframe : commandFrame t = commandFrame s := exec_keepsFrame i h
  have hdraw : t.draw = s.draw := congrArg CommandFrame.draw hframe
  have hreach := exec_driverReach hi h
  have hpb : t.pb = s.pb := congrArg (·.2.2.2) hreach.fixed
  have hdw : t.dw = s.dw := exec_keeps_dw (writesWindow_of_driverCommand hi) h
  refine ⟨eq_of_driverFixed hframe hreach.fixed hdw, fun hbegin => ?later,
    fun hinit => ⟨?notInit, fun hclose => exec_keeps_rstN hi hinit hclose h⟩, ?close, fun a => ?pixel,
    fun a ha => ?staged, hreach.trace⟩
  case later => exact (exec_cfg_cases h).resolve_right fun ⟨_, n, hn⟩ => hbegin n hn
  case notInit => exact (exec_cfg_cases h).resolve_right fun ⟨⟨ms, o, b, v, he⟩, _⟩ => hinit ms o b v he
  case close =>
    rintro rfl
    have hkept : requestView t = requestView s := execClose_keeps_requests h
    simpa only [requestView, Prod.mk.injEq] using hkept
  case pixel => rw [readPixel, readPixel, hpb, hdraw]
  case staged => rw [readTb, readTb, hreach.tb a ha, hdraw]

end Sys2Proof.Machine

/-!
PROOFS. That every executing command completes (O44): the steps a command may still take are bounded from the step SP is
at, and every step of a run under a cooperating environment uses one up.
-/

namespace Sys2Proof.Machine

/-! ## The steps left -/

/-- How many entries of the init table and how many chunks a run may go through (R204, R213). -/
structure RunSize where
  entries : Nat
  chunks : Nat

/-- The size of a run from `s` on. -/
def runSize (s : State) : RunSize := ⟨s.params.initTable.length, chunkCount s⟩

/-- A bound on the steps after a group (R180, R206); an entry of the init table ends with its Delay (R204). -/
def leftBeyondGroup (z : RunSize) (g : Group) (n : Nat) : Nat :=
  match g with
  | .initEntry => 8 * (z.entries - (n + 1)) + 4
  | .caset => 2 * z.chunks + 15
  | .raset => 2 * z.chunks + 9
  | .ramwr => 2 * z.chunks + 3
  | .slpin => 2
  | .slpout => 2

/-- A bound on a group's own steps after its micro-operation `m`: two for its parameters and two for an entry's Delay. -/
def leftInGroup (m : GroupStep) : Nat :=
  match m with
  | .cmdMode => 7
  | .cmdByte => 5
  | .dataMode => 4
  | .params => 2
  | .settle => 0

/-- A bound on the steps a command takes once its step `st` at counter `n` is over, whichever command it is. -/
def leftAfter (z : RunSize) (st : SeqStep) (n : Nat) : Nat :=
  match st with
  | .begin => 8 * z.entries + 2 * z.chunks + 32
  | .resetLow => 8 * z.entries + 2 * z.chunks + 31
  | .resetHold => 8 * z.entries + 2 * z.chunks + 29
  | .resetHigh => 8 * z.entries + 2 * z.chunks + 28
  | .recovery => 8 * z.entries + 2 * z.chunks + 26
  | .acquire => 8 * z.entries + 2 * z.chunks + 24
  | .select => 8 * z.entries + 2 * z.chunks + 23
  | .group g m => leftBeyondGroup z g n + leftInGroup m
  | .pixelMode => 2 * z.chunks + 4
  | .chunk => 2 * (z.chunks - (n + 1)) + 4
  | .deselect => 3
  | .release => 2
  | .postDelay => 0
  | .abortDeselect => 1
  | .abortRelease => 0
  | .closeDeselect => 2
  | .closeRelease => 1
  | .closeResetHigh => 0

/-- A step that waits for an answer is the request and what the answer brings; any other is one step. -/
def stepTime (st : SeqStep) : Nat := if awaits st then 2 else 1

/-- A bound on the steps a command takes from the beginning of its step `st`. -/
def leftAt (z : RunSize) (st : SeqStep) (n : Nat) : Nat := leftAfter z st n + stepTime st

/-- The bound from where SP is. -/
def leftOf (z : RunSize) (sp : SeqPtr) : Nat :=
  match sp with
  | .idle => 0
  | .run _ st n => leftAt z st n

/-- No step of a command has more ahead than `commandBound` allows. -/
theorem leftAt_le (z : RunSize) (st : SeqStep) (n : Nat) : leftAt z st n ≤ 8 * z.entries + 2 * z.chunks + 40 := by
  have htime : stepTime st ≤ 2 := by unfold stepTime; split_ifs <;> simp
  have hgroup (m : GroupStep) : leftInGroup m ≤ 7 := by cases m <;> simp [leftInGroup]
  have hbeyond (g : Group) : leftBeyondGroup z g n ≤ 8 * z.entries + 2 * z.chunks + 15 := by
    cases g <;> simp only [leftBeyondGroup] <;> omega
  cases st with
  | group g m =>
    have := hgroup m
    have := hbeyond g
    simp only [leftAt, leftAfter]
    omega
  | _ =>
    simp only [leftAt, leftAfter]
    omega

section
variable {z : RunSize} {b k n : Nat} {i : Instr} {op : Byte} {st : SeqStep} {s t : State} {f : State → Out}

theorem leftOf_goto_le (z : RunSize) (st : SeqStep) (k : Nat) (s : State) :
    leftOf z (goto st k s).sp ≤ leftAt z st k := by
  cases hsp : s.sp with
  | idle => simp [goto, hsp, leftOf]
  | run op st' n => simp [goto, hsp, leftOf]

/-! ## What the operations of a command leave to do -/

/-- Every next state of the operation, begun in a state of size `z`, has at most `b` steps left. -/
def EndsWithin (z : RunSize) (b : Nat) (f : State → Out) : Prop :=
  ∀ ⦃s t : State⦄, f s = .next t → runSize s = z → leftOf z t.sp ≤ b

theorem EndsWithin.goto (hb : leftAt z st k ≤ b) : EndsWithin z b fun s => .next (goto st k s) := by
  intro s t h _
  cases h
  exact (leftOf_goto_le z st k s).trans hb

theorem EndsWithin.complete (c : Code) : EndsWithin z b fun s => .next (complete c s) := by
  intro s t h _
  cases h
  exact Nat.zero_le b

theorem EndsWithin.finish (d : DriverState) (c : Code) : EndsWithin z b (finish d c) := by
  intro s t h _
  rw [finish_eq_next h]
  exact Nat.zero_le b

theorem EndsWithin.checked (i : Instr) (hf : EndsWithin z b f) : EndsWithin z b (checked i f) := by
  intro s t h hz
  rcases checked_eq_next h with ⟨-, h⟩ | ⟨-, rfl⟩
  · exact hf h hz
  · exact Nat.zero_le b

theorem EndsWithin.enterDelay {ms : Half} {hold : SeqStep} (hb : leftAt z hold k ≤ b) (hf : EndsWithin z b f) :
    EndsWithin z b (enterDelay ms hold k f) := by
  intro s t h hz
  rcases enterDelay_eq_next h with ⟨-, h⟩ | ⟨-, rfl⟩
  · exact hf h hz
  · exact (leftOf_goto_le z hold k s).trans hb

theorem EndsWithin.lineOp {line : State → State} (hline : ∀ s, runSize (line s) = runSize s)
    (hf : EndsWithin z b f) : EndsWithin z b fun s => andThen (lineOp line s) f := by
  intro s t h hz
  obtain ⟨u, hu, ht⟩ := andThen_eq_next.1 h
  obtain ⟨-, rfl⟩ := lineOp_eq_next.1 hu
  exact hf ht ((hline s).trans hz)

theorem EndsWithin.deselectStep (hb : leftAt z st 0 ≤ b) : EndsWithin z b (deselectStep st) := by
  intro s t h _
  obtain ⟨-, rfl⟩ := deselectStep_eq_next h
  exact (leftOf_goto_le z st 0 _).trans hb

theorem EndsWithin.releaseStep (hf : EndsWithin z b f) : EndsWithin z b (releaseStep f) :=
  fun s _ h hz => hf (s := releaseLock s) h hz

theorem initEntryAt_endsWithin (hb : 8 * (z.entries - k) + 4 ≤ b) : EndsWithin z b (initEntryAt k) := by
  intro s t h hz
  have hentries : s.params.initTable.length = z.entries := congrArg RunSize.entries hz
  rcases initEntryAt_eq_next h with ⟨hk, rfl⟩ | ⟨-, rfl⟩
  · refine (leftOf_goto_le z _ k s).trans ?_
    rw [hentries] at hk
    simp only [leftAt, leftAfter, leftBeyondGroup, leftInGroup, stepTime, awaits_cmdMode, Bool.false_eq_true, if_false]
    omega
  · refine (leftOf_goto_le z _ 0 s).trans (le_trans ?_ hb)
    exact Nat.le_add_left 4 _

theorem flushChunkAt_endsWithin (hb : 2 * (z.chunks - k) + 4 ≤ b) : EndsWithin z b (flushChunkAt k) := by
  intro s t h hz
  have hchunks : chunkCount s = z.chunks := congrArg RunSize.chunks hz
  rcases flushChunkAt_eq_next h with ⟨hk, rfl⟩ | ⟨-, rfl⟩
  · refine (leftOf_goto_le z _ k s).trans ?_
    rw [hchunks] at hk
    simp only [leftAt, leftAfter, stepTime, awaits, stepMode, Option.isSome_some, Bool.true_or, if_true]
    omega
  · refine (leftOf_goto_le z _ 0 s).trans (le_trans ?_ hb)
    exact Nat.le_add_left 4 _

theorem flushBegin_endsWithin (hb : leftAt z .acquire 0 ≤ b) : EndsWithin z b flushBegin := by
  intro s t h _
  simp only [flushBegin] at h
  split_ifs at h <;> cases h
  · exact (leftOf_goto_le z .acquire 0 _).trans hb
  · exact Nat.zero_le b

theorem pixelModeStep_endsWithin (hb : 2 * z.chunks + 4 ≤ b) : EndsWithin z b pixelModeStep := fun s _ h hz =>
  EndsWithin.lineOp (line := dataModeLine) (fun _ => rfl) (flushChunkAt_endsWithin (k := 0) hb)
    (s := { s with chunksTotal := sat16 (chunkCount s) }) h hz

theorem selectStep_endsWithin (hf : EndsWithin z b f) : EndsWithin z b fun s => andThen (lineOp selectLine s) f :=
  .lineOp (fun _ => rfl) hf

theorem initBegin_endsWithin (o : BitVec 2) (bgr v : Bool) (hb : leftAt z .resetLow 0 ≤ b) :
    EndsWithin z b (initBegin o bgr v) := by
  intro s t h _
  cases h
  exact (leftOf_goto_le z .resetLow 0 _).trans hb

theorem initOpen_endsWithin (hb : leftAt z .acquire 0 ≤ b) : EndsWithin z b initOpen := by
  intro s t h _
  cases h
  exact (leftOf_goto_le z .acquire 0 _).trans hb

theorem flushEnd_endsWithin : EndsWithin z b fun t => Machine.finish .ready .ok { t with dw := Window.empty } := by
  intro s t h _
  rw [finish_eq_next h]
  exact Nat.zero_le b

/-! ## What a step of a command does to the bound -/

/-- A step of a command either raises the request that its micro-operation waits on, or ends the micro-operation. -/
def Progress (s t : State) : Prop :=
  (s.reply = none ∧ t.sp = s.sp ∧ inHold t = true) ∨
  ∃ op st n, s.sp = .run op st n ∧ leftOf (runSize s) t.sp ≤ leftAfter (runSize s) st n

theorem EndsWithin.progress (hsp : s.sp = .run op st n)
    (hf : EndsWithin (runSize s) (leftAfter (runSize s) st n) f) (h : f s = .next t) : Progress s t :=
  .inr ⟨op, st, n, hsp, hf h rfl⟩

theorem requestTransfer_progress {bytes : List Byte} (hr : s.reply = none) (h : requestTransfer bytes s = .next t) :
    Progress s t := by
  obtain ⟨-, rfl⟩ := requestTransfer_eq_next.1 h
  exact .inl ⟨hr, rfl, rfl⟩

theorem delayStep_progress {ms : Half} (hsp : s.sp = .run op st n)
    (hf : EndsWithin (runSize s) (leftAfter (runSize s) st n) f) (h : delayStep ms f s = .next t) : Progress s t := by
  rcases delayStep_eq_next h with ⟨-, h⟩ | ⟨-, hr, rfl⟩ | ⟨-, -, h⟩
  · exact .inr ⟨op, st, n, hsp, hf h rfl⟩
  · exact .inl ⟨hr, rfl, (inHold_iff _).2 (.inr (.inl (by simp [requestDelay])))⟩
  · exact .inr ⟨op, st, n, hsp, hf h rfl⟩

/-- Acquire ends, or waits for the lock that its step does not hold yet (R176, R179). -/
theorem acquireStep_progress (hlv : (s.csN, s.rstN, s.locked) = spLevels s.sp) (hsp : s.sp = .run op .acquire n)
    (h : acquireStep (fun t => .next (goto .select 0 t)) s = .next t) : Progress s t := by
  rcases acquireStep_eq_next h with ⟨-, hr, rfl⟩ | ⟨-, h⟩
  · have hlk : s.locked = false := by
      rw [hsp] at hlv
      exact congrArg (·.2.2) hlv
    exact .inl ⟨hr, rfl, (inHold_iff _).2 (.inr (.inr (by simp [hlk])))⟩
  · cases h
    exact .inr ⟨op, .acquire, n, hsp, leftOf_goto_le _ .select 0 _⟩

/-- A transfer answered ERR leaves AbortFrame's two steps (R181). -/
theorem leftOf_abort_le (z : RunSize) (s : State) (hb : 2 ≤ b) : leftOf z (goto .abortDeselect 0 s).sp ≤ b :=
  (leftOf_goto_le z .abortDeselect 0 s).trans hb

/-- A group's micro-operations in order (R180); its counter may be any that leaves as many steps beyond the group. -/
theorem groupStep_progress {g : Group} {m : GroupStep} {cmd : Byte} {params : List Byte}
    (hsp : s.sp = .run op (.group g m) n) (hk : leftBeyondGroup (runSize s) g k = leftBeyondGroup (runSize s) g n)
    (hf : EndsWithin (runSize s) (leftBeyondGroup (runSize s) g n + 2) f)
    (h : groupStep g m k cmd params f s = .next t) : Progress s t := by
  rcases groupStep_eq_next h with ⟨rfl, -, rfl⟩ | ⟨rfl, -, rfl⟩ | ⟨-, hr, h⟩ | ⟨-, hr, h⟩ | ⟨rfl, -, -, rfl⟩ |
    ⟨hm, -, h⟩ | ⟨hm, -, rfl⟩
  · refine .inr ⟨_, _, _, hsp, (leftOf_goto_le _ _ k _).trans ?_⟩
    simp [leftAt, leftAfter, hk, leftInGroup, stepTime, awaits, stepMode]
  · refine .inr ⟨_, _, _, hsp, (leftOf_goto_le _ _ k _).trans ?_⟩
    simp [leftAt, leftAfter, hk, leftInGroup, stepTime, awaits, stepMode]
  · exact requestTransfer_progress hr h
  · exact requestTransfer_progress hr h
  · refine .inr ⟨_, _, _, hsp, (leftOf_goto_le _ _ k _).trans ?_⟩
    simp [leftAt, leftAfter, hk, leftInGroup, stepTime, awaits_dataMode]
  · refine .inr ⟨_, _, _, hsp, (hf h rfl).trans ?_⟩
    rcases hm with ⟨rfl, -⟩ | rfl <;> simp [leftAfter, leftInGroup]
  · refine .inr ⟨_, _, _, hsp, leftOf_abort_le _ _ ?_⟩
    rcases hm with rfl | rfl <;> simp [leftAfter, leftInGroup]

theorem initGroup_progress {m : GroupStep} (hsp : s.sp = .run op (.group .initEntry m) n)
    (h : initGroup m n s = .next t) : Progress s t := by
  unfold initGroup at h
  split at h
  · cases h
  next e he =>
    split at h
    · exact delayStep_progress hsp (initEntryAt_endsWithin le_rfl) h
    · exact groupStep_progress hsp rfl (.enterDelay le_rfl (initEntryAt_endsWithin (Nat.le_add_right _ 2))) h

theorem chunkStep_progress (hsp : s.sp = .run op .chunk n) (h : chunkStep n s = .next t) : Progress s t := by
  obtain ⟨-, ⟨hr, h⟩ | ⟨-, h⟩ | ⟨-, rfl⟩⟩ := chunkStep_eq_next h
  · obtain ⟨-, rfl⟩ := requestTransfer_eq_next.1 h
    exact .inl ⟨hr, rfl, rfl⟩
  · exact .inr ⟨_, _, _, hsp, flushChunkAt_endsWithin le_rfl h rfl⟩
  · exact .inr ⟨_, _, _, hsp, leftOf_abort_le _ _ (Nat.le_add_left 2 _)⟩

/-! ## The commands -/

/-- A command with no reset pulse goes from its check to Acquire (R279, R289, R294). -/
theorem leftAt_acquire_le_begin (z : RunSize) (n : Nat) : leftAt z .acquire 0 ≤ leftAfter z .begin n := by
  simp [leftAt, leftAfter, stepTime, awaits, stepMode, stepDelays]

/-- INIT's Delay with reset low may be none (R174, R272). -/
theorem leftAt_resetHigh_le_resetLow (z : RunSize) (n : Nat) : leftAt z .resetHigh 0 ≤ leftAfter z .resetLow n := by
  simp [leftAt, leftAfter, stepTime, awaits, stepMode, stepDelays]

/-- INIT's Delay for recovery may be none (R174, R272). -/
theorem leftAt_acquire_le_resetHigh (z : RunSize) (n : Nat) : leftAt z .acquire 0 ≤ leftAfter z .resetHigh n := by
  simp [leftAt, leftAfter, stepTime, awaits, stepMode, stepDelays]

/-- A frame opens with a group (R206, R289, R294). -/
theorem leftAt_group_le_select (z : RunSize) (n : Nat) {g : Group} (hg : g = .caset ∨ g = .slpin ∨ g = .slpout) :
    leftAt z (.group g .cmdMode) 0 ≤ leftAfter z .select n := by
  have hbeyond : leftBeyondGroup z g 0 ≤ 2 * z.chunks + 15 := by
    rcases hg with rfl | rfl | rfl <;> simp only [leftBeyondGroup] <;> omega
  simp only [leftAt, leftAfter, leftInGroup, stepTime, awaits_cmdMode, Bool.false_eq_true, if_false]
  omega

/-- INIT's arms in order (R272). -/
theorem execInit_progress {ms : Half} {o : BitVec 2} {bgr v : Bool}
    (hlv : (s.csN, s.rstN, s.locked) = spLevels s.sp) (h : execInit ms o bgr v s = .next t) : Progress s t := by
  unfold execInit at h
  split at h
  case h_1 hsp => exact EndsWithin.progress hsp (.checked _ (initBegin_endsWithin o bgr v le_rfl)) h
  case h_2 n hsp => exact EndsWithin.progress hsp (.lineOp (line := resetLowLine) (fun _ => rfl)
      (.enterDelay le_rfl (.goto (leftAt_resetHigh_le_resetLow _ n)))) h
  case h_3 hsp => exact delayStep_progress hsp (.goto le_rfl) h
  case h_4 n hsp => exact EndsWithin.progress hsp (.lineOp (line := resetHighLine) (fun _ => rfl)
      (.enterDelay le_rfl (initOpen_endsWithin (leftAt_acquire_le_resetHigh _ n)))) h
  case h_5 hsp => exact delayStep_progress hsp (initOpen_endsWithin le_rfl) h
  case h_6 hsp => exact acquireStep_progress hlv hsp h
  case h_7 hsp =>
    exact EndsWithin.progress hsp (selectStep_endsWithin (initEntryAt_endsWithin (by simp only [leftAfter]; omega))) h
  case h_8 hsp => exact initGroup_progress hsp h
  case h_9 hsp => exact EndsWithin.progress hsp (.deselectStep le_rfl) h
  case h_10 hsp => exact EndsWithin.progress hsp (.releaseStep (.enterDelay le_rfl (.finish _ _))) h
  case h_11 hsp => exact delayStep_progress hsp (.finish _ _) h
  case h_12 hsp => exact EndsWithin.progress hsp (.deselectStep le_rfl) h
  case h_13 hsp => exact EndsWithin.progress hsp (.releaseStep (.finish _ _)) h
  case h_14 => cases h

/-- FLUSH's arms in order (R279). -/
theorem execFlush_progress (hlv : (s.csN, s.rstN, s.locked) = spLevels s.sp) (h : execFlush s = .next t) :
    Progress s t := by
  unfold execFlush at h
  split at h
  case h_1 n hsp =>
    exact EndsWithin.progress hsp (.checked _ (flushBegin_endsWithin (leftAt_acquire_le_begin _ n))) h
  case h_2 hsp => exact acquireStep_progress hlv hsp h
  case h_3 n hsp =>
    exact EndsWithin.progress hsp (selectStep_endsWithin (.goto (leftAt_group_le_select _ n (.inl rfl)))) h
  case h_4 hsp => exact groupStep_progress (k := 0) hsp rfl (.goto le_rfl) h
  case h_5 hsp => exact groupStep_progress (k := 0) hsp rfl (.goto le_rfl) h
  case h_6 hsp => exact groupStep_progress (k := 0) hsp rfl (.goto le_rfl) h
  case h_7 hsp => exact EndsWithin.progress hsp (pixelModeStep_endsWithin le_rfl) h
  case h_8 hsp => exact chunkStep_progress hsp h
  case h_9 hsp => exact EndsWithin.progress hsp (.deselectStep le_rfl) h
  case h_10 hsp => exact EndsWithin.progress hsp (.releaseStep flushEnd_endsWithin) h
  case h_11 hsp => exact EndsWithin.progress hsp (.deselectStep le_rfl) h
  case h_12 hsp => exact EndsWithin.progress hsp (.releaseStep (.finish _ _)) h
  case h_13 => cases h

/-- SLEEP's arms in order (R289). -/
theorem execSleep_progress (hlv : (s.csN, s.rstN, s.locked) = spLevels s.sp) (h : execSleep s = .next t) :
    Progress s t := by
  unfold execSleep at h
  split at h
  case h_1 n hsp => exact EndsWithin.progress hsp (.checked _ (.goto (leftAt_acquire_le_begin _ n))) h
  case h_2 hsp => exact acquireStep_progress hlv hsp h
  case h_3 n hsp =>
    exact EndsWithin.progress hsp (selectStep_endsWithin (.goto (leftAt_group_le_select _ n (.inr (.inl rfl))))) h
  case h_4 hsp => exact groupStep_progress (k := 0) hsp rfl (.goto le_rfl) h
  case h_5 hsp => exact EndsWithin.progress hsp (.deselectStep le_rfl) h
  case h_6 hsp => exact EndsWithin.progress hsp (.releaseStep (.enterDelay le_rfl (.finish _ _))) h
  case h_7 hsp => exact delayStep_progress hsp (.finish _ _) h
  case h_8 hsp => exact EndsWithin.progress hsp (.deselectStep le_rfl) h
  case h_9 hsp => exact EndsWithin.progress hsp (.releaseStep (.complete _)) h
  case h_10 => cases h

/-- WAKE's arms in order (R294). -/
theorem execWake_progress (hlv : (s.csN, s.rstN, s.locked) = spLevels s.sp) (h : execWake s = .next t) :
    Progress s t := by
  unfold execWake at h
  split at h
  case h_1 n hsp => exact EndsWithin.progress hsp (.checked _ (.goto (leftAt_acquire_le_begin _ n))) h
  case h_2 hsp => exact acquireStep_progress hlv hsp h
  case h_3 n hsp =>
    exact EndsWithin.progress hsp (selectStep_endsWithin (.goto (leftAt_group_le_select _ n (.inr (.inr rfl))))) h
  case h_4 hsp => exact groupStep_progress (k := 0) hsp rfl (.goto le_rfl) h
  case h_5 hsp => exact EndsWithin.progress hsp (.deselectStep le_rfl) h
  case h_6 hsp => exact EndsWithin.progress hsp (.releaseStep (.enterDelay le_rfl (.finish _ _))) h
  case h_7 hsp => exact delayStep_progress hsp (.finish _ _) h
  case h_8 hsp => exact EndsWithin.progress hsp (.deselectStep le_rfl) h
  case h_9 hsp => exact EndsWithin.progress hsp (.releaseStep (.complete _)) h
  case h_10 => cases h

/-- CLOSE's arms in order (R299). -/
theorem execClose_progress (h : execClose s = .next t) : Progress s t := by
  unfold execClose at h
  split at h
  case h_1 hsp => exact EndsWithin.progress hsp (.checked _ (.goto (Nat.le_add_left _ _))) h
  case h_2 hsp => exact EndsWithin.progress hsp (.deselectStep le_rfl) h
  case h_3 hsp => exact EndsWithin.progress hsp (.releaseStep (.goto le_rfl)) h
  case h_4 hsp => exact EndsWithin.progress hsp (.lineOp (line := resetHighLine) (fun _ => rfl) (.finish _ _)) h
  case h_5 => cases h

/-- A command that has completed has no steps left (R322). -/
theorem Progress.of_idle (hsp : s.sp = .run op st n) (ht : t.sp = .idle) : Progress s t :=
  .inr ⟨op, st, n, hsp, by rw [ht]; exact Nat.zero_le _⟩

theorem Ends.idle {c : Code} {done : State} (hdone : done.sp = .idle) (h : Ends c done s t) : t.sp = .idle := by
  rcases h with ⟨-, rfl⟩ | ⟨-, rfl⟩
  · exact hdone
  · rfl

/-- Every command's step raises a request or ends its micro-operation; the framebuffer commands have one step. -/
theorem exec_progress (hsp : s.sp = .run op st n) (hlv : (s.csN, s.rstN, s.locked) = spLevels s.sp)
    (h : exec i s = .next t) : Progress s t := by
  cases i with
  | init ms o bgr v => exact execInit_progress hlv h
  | flush => exact execFlush_progress hlv h
  | sleep => exact execSleep_progress hlv h
  | wake => exact execWake_progress hlv h
  | close => exact execClose_progress h
  | writePixel color x y => exact .of_idle hsp ((exec_writePixel_ends h).idle rfl)
  | drawImage x y w h' => exact .of_idle hsp ((exec_drawImage_ends h).idle rfl)
  | clear color => exact .of_idle hsp ((exec_clear_ends h).idle rfl)

/-- A command about to go on makes progress; abandoned, or found illegal, it completes (R130, R303). -/
theorem proceed_progress {armed : Bool} (hp : Poised st n armed s) (h : proceed s = .next t) : Progress s t := by
  rcases proceed_eq_next h with ⟨-, -, rfl⟩ | ⟨-, h⟩
  · exact .of_idle hp.sp rfl
  · rcases runCommand_eq_next h with ⟨i, rest, -, hexec⟩ | ⟨e, op, n, -, -, rfl⟩
    · exact exec_progress hp.sp hp.inv.levels hexec
    · exact .of_idle hp.sp rfl

/-! ## The run -/

/-- The steps a run still takes, at most: one fewer when the request of the step SP is at has been raised. -/
def stepsLeft (s : State) : Nat := leftOf (runSize s) s.sp - if inHold s then 1 else 0

/-- The size of a run is fixed until the command completes: only its end changes DW (R43). -/
theorem proceed_runSize (h : proceed s = .next t) : runSize t = runSize s ∨ t.busy = false := by
  have hparams : t.params = s.params := proceed_keeps_params h
  have hsize (hdw : t.dw = s.dw) : runSize t = runSize s := by
    simp only [runSize, hparams, chunkCount_congr hdw hparams]
  rcases proceed_effect h with ⟨w, he | hc, -⟩ | ⟨ms, o, b, v, rest, -, -, -, -, ht⟩
  · exact .inl (hsize (congrArg (·.1.dw) he))
  · exact .inr hc.busy
  · exact .inl (hsize (congrArg (·.1.dw) ht))

/-- In each turn of a run the executing command goes on: by the answer it waits for, or of itself (R270, R381). -/
theorem coopTurn_eq_proceed (hinv : Inv s) (hsp : s.sp = .run op st n) (a : Answer) :
    ∃ v armed, takeTurn (coopTurn a s) s = proceed v ∧ Poised st n armed v ∧ runSize v = runSize s ∧
      (inHold s = true ↔ v.reply ≠ none) := by
  have hat {v : State} {st' : SeqStep} {n' : Nat} {armed : Bool} (hv : v.sp = s.sp) (hp : Poised st' n' armed v) :
      Poised st n armed v := by
    obtain ⟨-, rfl, rfl⟩ := SeqPtr.run.inj (hp.sp.symm.trans (hv.trans hsp))
    exact hp
  by_cases hx : s.xfer.pending = true
  · obtain ⟨st', n', armed, hp⟩ := hinv.poised_transport hx a
    have hturn : coopTurn a s = ⟨none, .transport a⟩ := if_pos hx
    exact ⟨recordAnswer a s, armed, by rw [hturn]; exact transportAnswer_of_pending a hx, hat rfl hp, rfl,
      by simp [inHold, hx]⟩
  have hx' : s.xfer.pending = false := by simpa using hx
  by_cases hd : s.delay = none
  swap
  · obtain ⟨st', n', armed, hp⟩ := hinv.poised_timer hd
    have hturn : coopTurn a s = ⟨none, .timer⟩ := by simp [coopTurn, hx', Option.isSome_iff_ne_none.2 hd]
    exact ⟨{ s with delay := none, reply := some .ok }, armed, by rw [hturn]; exact timerAnswer_of_delay hd,
      hat rfl hp, rfl, by simp [inHold_iff, hd]⟩
  by_cases hl : (s.lockReq && !s.locked) = true
  · obtain ⟨st', n', armed, hp⟩ := hinv.poised_grant hl
    have hturn : coopTurn a s = ⟨none, .grant⟩ := by simp [coopTurn, hx', hd, hl]
    exact ⟨{ s with reply := some .ok }, armed, by rw [hturn]; exact grantLock_of_request hl, hat rfl hp, rfl,
      by simp only [inHold_iff, hl]; simp⟩
  · have hl' : (s.lockReq && !s.locked) = false := by simpa using hl
    have hhold : inHold s = false := inHold_eq_false hx' hd hl'
    obtain ⟨armed, hp⟩ := hinv.poised_core hsp hx' hd
    have hturn : coopTurn a s = ⟨none, .core⟩ := by simp [coopTurn, hx', hd, hl']
    exact ⟨s, armed, by rw [hturn]; exact coreStep_ready hsp hhold, hp, rfl, by simp [hhold, hinv.noReply]⟩

/-- A turn of a run is there, and after it fewer steps are left. -/
theorem coopTurn_descends (hinv : Inv s) (hsp : s.sp = .run op st n) (a : Answer) :
    ∃ t, takeTurn (coopTurn a s) s = .next t ∧ Inv t ∧ stepsLeft t < stepsLeft s := by
  obtain ⟨v, armed, hturn, hp, hsize, hhold⟩ := coopTurn_eq_proceed hinv hsp a
  obtain ⟨t, ht, hinvt⟩ := proceed_leads hp
  refine ⟨t, hturn.trans ht, hinvt, ?_⟩
  have htime : 1 ≤ stepTime st ∧ (inHold s = true → stepTime st = 2) :=
    ⟨by unfold stepTime; split_ifs <;> simp, fun h => if_pos (hp.answered (hhold.1 h))⟩
  have hsizet : leftOf (runSize t) t.sp = leftOf (runSize s) t.sp := by
    rcases proceed_runSize ht with h | h
    · rw [h, hsize]
    · rw [hinvt.idle h]
      rfl
  have hlefts : leftOf (runSize s) s.sp = leftAfter (runSize s) st n + stepTime st := by
    rw [hsp]
    rfl
  rw [stepsLeft, stepsLeft, hsizet, hlefts]
  rcases proceed_progress hp ht with ⟨hr, hspt, hholdt⟩ | ⟨op', st', n', hspv, hle⟩
  · have hhold' : ¬ inHold s = true := fun h => hhold.1 h hr
    rw [hspt, hp.sp, leftOf, leftAt, if_pos hholdt, if_neg hhold']
    omega
  · obtain ⟨-, rfl, rfl⟩ := SeqPtr.run.inj (hp.sp.symm.trans hspv)
    rw [hsize] at hle
    by_cases hs : inHold s = true
    · have htwo := htime.2 hs
      rw [if_pos hs]
      omega
    · rw [if_neg hs]
      omega

/-- A run with as much fuel as steps are left ends with SP IDLE, whatever TRANSPORT answers. -/
theorem drive_completes (fuel : Nat) (as : List Answer) (s : State) (hinv : Inv s) (hfuel : stepsLeft s ≤ fuel) :
    ∃ t, drive fuel as s = .next t ∧ Inv t ∧ t.sp = .idle := by
  induction fuel generalizing as s with
  | zero =>
    cases hsp : s.sp with
    | idle => exact ⟨s, rfl, hinv, hsp⟩
    | run op st n =>
      obtain ⟨t, -, -, hlt⟩ := coopTurn_descends hinv hsp .ok
      omega
  | succ fuel ih =>
    cases hsp : s.sp with
    | idle => exact ⟨s, drive_idle _ as hsp, hinv, hsp⟩
    | run op st n =>
      obtain ⟨t, hturn, hinvt, hlt⟩ := coopTurn_descends (s := { s with turns := [] }) { hinv with } hsp (as.headD .ok)
      have hstep : step { s with turns := [coopTurn (as.headD .ok) s] } = .next t :=
        (step_of_turns_cons rfl).trans hturn
      have hleft : stepsLeft t < stepsLeft s := hlt
      unfold drive
      split
      next hidle => cases hidle.symm.trans hsp
      next =>
        rw [hstep]
        exact ih _ t hinvt (by omega)

theorem stepsLeft_le_commandBound (s : State) : stepsLeft s ≤ commandBound s := by
  cases hsp : s.sp with
  | idle => simp [stepsLeft, hsp, leftOf]
  | run op st n =>
    have hbound : leftAt (runSize s) st n ≤ commandBound s := leftAt_le _ st n
    rw [stepsLeft, hsp]
    exact (Nat.sub_le _ _).trans hbound

end

/-- Settles O44: every step of the run uses up one of the steps left, which the bound exceeds. -/
theorem everyCommandCompletes : Obligations.EveryCommandCompletes := by
  intro s as hinv _
  obtain ⟨t, hrun, hinvt, hidle⟩ := drive_completes _ as s hinv (stepsLeft_le_commandBound s)
  refine ⟨t, hrun, hidle, ?_⟩
  rw [hinvt.busy, hidle]
  rfl

end Sys2Proof.Machine

/-!
PROOFS. What an outstanding transfer and an executing FLUSH hold still: TB, dc and the lines (O52) and PB (O53).
-/

namespace Sys2Proof.Machine

section
variable {i : Instr} {s t : State} {f : State → Out} {op : Byte} {n k : Nat} {a : Access}

/-! ## The HOST's step while a command executes -/

/-- `t` is `s` but for the HOST's port, the interrupt registers and CLOSE_PENDING (R31). -/
def PortChange (s t : State) : Prop :=
  t = { s with rdata := t.rdata, held := t.held, closePending := t.closePending, doneIe := t.doneIe,
               intDone := t.intDone, intErr := t.intErr }

/-- The executing command of `s` is abandoned in a Delay or Acquire hold by a CTRL store (R303). -/
def HoldAbandoned (s t : State) : Prop :=
  inTimedHold s = true ∧ ∃ d, t = abandon { s with doneIe := d, closePending := true }

theorem writeCtrl_of_busy (v : Word) (hb : s.busy = true) :
    PortChange s (writeCtrl v s) ∨ HoldAbandoned s (writeCtrl v s) := by
  unfold writeCtrl
  dsimp only
  split_ifs
  · rcases closeRequest_cases { s with doneIe := v.getLsbD 0 } with ⟨-, he⟩ | ⟨-, hhold, -, he⟩ | ⟨-, -, he⟩ |
      ⟨hidle, -⟩ | ⟨hidle, -⟩
    · exact .inl (by rw [he]; rfl)
    · exact .inr ⟨hhold, _, he⟩
    · exact .inl (by rw [he]; rfl)
    · exact absurd (hb.symm.trans hidle) (by simp)
    · exact absurd (hb.symm.trans hidle) (by simp)
  · exact .inl rfl

/-- While a command executes no word is accepted and no register is written, so these are the two things the HOST's step
can do (R31, R32, R303). -/
theorem hostStep_of_busy (hb : s.busy = true) (h : hostStep a s = .next t) : PortChange s t ∨ HoldAbandoned s t := by
  rcases hostStep_eq_next h with ⟨-, -, rfl⟩ | ⟨-, h⟩
  · exact .inl rfl
  cases a with
  | read addr width =>
    simp only [hostAccess] at h
    obtain ⟨-, -, h⟩ := guardAccess_eq_next h
    cases h
    exact .inl rfl
  | write addr width v =>
    simp only [hostAccess] at h
    obtain ⟨-, -, h⟩ := guardAccess_eq_next h
    rcases writeReg_eq_next h with ⟨-, h⟩ | ⟨-, rfl⟩ | ⟨-, rfl⟩ | ⟨-, -, -, rfl⟩
    · rcases writeCmd_eq_next h with ⟨hidle, -⟩ | ⟨-, rfl⟩
      · exact absurd (hb.symm.trans hidle) (by simp)
      · exact .inl rfl
    · exact writeCtrl_of_busy v hb
    · exact .inl rfl
    · exact .inl rfl

/-- A turn's first part, while a command executes. -/
theorem turn_of_busy {rest : List Turn} {u : State} (hb : s.busy = true)
    (hu : u = { s with turns := rest } ∨ ∃ a, hostStep a { s with turns := rest } = .next u) :
    PortChange { s with turns := rest } u ∨ HoldAbandoned { s with turns := rest } u := by
  rcases hu with rfl | ⟨a, ha⟩
  · exact .inl rfl
  · exact hostStep_of_busy (s := { s with turns := rest }) hb ha

/-! ## The step that a transfer's answer brings -/

/-- The transfer buffer, the request and dc (R84, R161, R165). -/
def bufferView (s : State) : Memory 8 × Xfer × Bool := (s.tb, s.xfer, s.dc)

/-- SP is at a step that requests a transfer (R161). -/
def requesting (s : State) : Bool := spStep s.sp false fun st => (stepMode st).isSome

theorem requesting_of_sp {st : SeqStep} (hsp : s.sp = .run op st n) : requesting s = (stepMode st).isSome := by
  rw [requesting, hsp]
  rfl

theorem goto_keeps_buffer (st : SeqStep) (k : Nat) : Keeps bufferView fun s => .next (goto st k s) :=
  Keeps.next fun _ => rfl

theorem initEntryAt_keeps_buffer (k : Nat) : Keeps bufferView (initEntryAt k) := by
  intro s t h
  rcases initEntryAt_eq_next h with ⟨-, rfl⟩ | ⟨-, rfl⟩ <;> rfl

theorem flushChunkAt_keeps_buffer (k : Nat) : Keeps bufferView (flushChunkAt k) := by
  intro s t h
  rcases flushChunkAt_eq_next h with ⟨-, rfl⟩ | ⟨-, rfl⟩ <;> rfl

theorem enterDelay_keeps_buffer (ms : Half) (hold : SeqStep) (hf : Keeps bufferView f) :
    Keeps bufferView (enterDelay ms hold k f) := by
  intro s t h
  rcases enterDelay_eq_next h with ⟨-, h⟩ | ⟨-, rfl⟩
  · exact hf h
  · rfl

/-- What follows a group's answer raises no request of its own (R170, R180). -/
theorem groupStep_answered {g : Group} {m : GroupStep} {cmd : Byte} {params : List Byte}
    (hsp : s.sp = .run op (.group g m) n) (hreq : requesting s = true) (hr : s.reply ≠ none) (hf : Keeps bufferView f)
    (h : groupStep g m k cmd params f s = .next t) : bufferView t = bufferView s := by
  rw [requesting_of_sp hsp] at hreq
  rcases groupStep_eq_next h with ⟨rfl, -, -⟩ | ⟨rfl, -, -⟩ | ⟨-, hr', -⟩ | ⟨-, hr', -⟩ | ⟨-, -, -, rfl⟩ | ⟨-, -, h⟩ |
    ⟨-, -, rfl⟩
  · cases hreq
  · cases hreq
  · exact absurd hr' hr
  · exact absurd hr' hr
  · rfl
  · exact hf.from_eq h rfl
  · rfl

theorem initGroup_answered {m : GroupStep} (hsp : s.sp = .run op (.group .initEntry m) n) (hreq : requesting s = true)
    (hr : s.reply ≠ none) (h : initGroup m n s = .next t) : bufferView t = bufferView s := by
  unfold initGroup at h
  split at h
  · cases h
  next e he =>
    split at h
    · cases (requesting_of_sp hsp).symm.trans hreq
    · exact groupStep_answered hsp hreq hr (enterDelay_keeps_buffer _ _ (initEntryAt_keeps_buffer _)) h

theorem chunkStep_answered (hr : s.reply ≠ none) (h : chunkStep k s = .next t) : bufferView t = bufferView s := by
  obtain ⟨-, ⟨hr', -⟩ | ⟨-, h⟩ | ⟨-, rfl⟩⟩ := chunkStep_eq_next h
  · exact absurd hr' hr
  · exact (flushChunkAt_keeps_buffer _).from_eq h rfl
  · rfl

theorem execInit_answered {ms : Half} {o : BitVec 2} {b v : Bool} (hreq : requesting s = true) (hr : s.reply ≠ none)
    (h : execInit ms o b v s = .next t) : bufferView t = bufferView s := by
  unfold execInit at h
  split at h
  case h_8 hsp => exact initGroup_answered hsp hreq hr h
  case h_14 => cases h
  all_goals next hsp => cases (requesting_of_sp hsp).symm.trans hreq

theorem execFlush_answered (hreq : requesting s = true) (hr : s.reply ≠ none) (h : execFlush s = .next t) :
    bufferView t = bufferView s := by
  unfold execFlush at h
  split at h
  case h_4 hsp => exact groupStep_answered hsp hreq hr (goto_keeps_buffer _ _) h
  case h_5 hsp => exact groupStep_answered hsp hreq hr (goto_keeps_buffer _ _) h
  case h_6 hsp => exact groupStep_answered hsp hreq hr (goto_keeps_buffer _ _) h
  case h_8 => exact chunkStep_answered hr h
  case h_13 => cases h
  all_goals next hsp => cases (requesting_of_sp hsp).symm.trans hreq

theorem execSleep_answered (hreq : requesting s = true) (hr : s.reply ≠ none) (h : execSleep s = .next t) :
    bufferView t = bufferView s := by
  unfold execSleep at h
  split at h
  case h_4 hsp => exact groupStep_answered hsp hreq hr (goto_keeps_buffer _ _) h
  case h_10 => cases h
  all_goals next hsp => cases (requesting_of_sp hsp).symm.trans hreq

theorem execWake_answered (hreq : requesting s = true) (hr : s.reply ≠ none) (h : execWake s = .next t) :
    bufferView t = bufferView s := by
  unfold execWake at h
  split at h
  case h_4 hsp => exact groupStep_answered hsp hreq hr (goto_keeps_buffer _ _) h
  case h_10 => cases h
  all_goals next hsp => cases (requesting_of_sp hsp).symm.trans hreq

/-- A framebuffer command is at its first step, which requests nothing (R241, R248, R256). -/
theorem atBegin_not_requesting (hreq : requesting s = true) (h : atBegin f s = .next t) : False := by
  obtain ⟨⟨op, n, hsp⟩, -⟩ := atBegin_eq_next h
  cases (requesting_of_sp hsp).symm.trans hreq

theorem exec_answered (hreq : requesting s = true) (hr : s.reply ≠ none) (h : exec i s = .next t) :
    bufferView t = bufferView s := by
  cases i with
  | init ms o b v => exact execInit_answered hreq hr h
  | flush => exact execFlush_answered hreq hr h
  | sleep => exact execSleep_answered hreq hr h
  | wake => exact execWake_answered hreq hr h
  | close =>
    have hkept : requestView t = requestView s := execClose_keeps_requests h
    simp only [requestView, Prod.mk.injEq] at hkept
    obtain ⟨htb, hxfer, hdc, -⟩ := hkept
    rw [bufferView, htb, hxfer, hdc]
    rfl
  | writePixel => exact (atBegin_not_requesting hreq h).elim
  | drawImage x y width height =>
    exact (atBegin_not_requesting hreq (show execDrawImage x y width height s = .next t from h)).elim
  | clear => exact (atBegin_not_requesting hreq h).elim

/-- Abandoned, illegal or going on, the command leaves TB, the request and dc as the answer left them. -/
theorem proceed_answered (hreq : requesting s = true) (hr : s.reply ≠ none) (h : proceed s = .next t) :
    bufferView t = bufferView s := by
  rcases proceed_eq_next h with ⟨-, -, rfl⟩ | ⟨-, h⟩
  · rfl
  · rcases runCommand_eq_next h with ⟨i, rest, -, hexec⟩ | ⟨e, op, n, -, -, rfl⟩
    · exact exec_answered hreq hr hexec
    · rfl

/-! ## An outstanding transfer -/

/-- While a transfer is outstanding only TRANSPORT's answer moves the command (R161, R170). -/
theorem Inv.move_of_transfer {m : Move} (hinv : Inv s) (hx : s.xfer.pending = true) (hm : m ≠ .blockReset)
    (h : move m s = .next t) : t = s ∨ ∃ a, proceed (recordAnswer a s) = .next t := by
  have hhold := hinv.noTimedHold_of_transfer hx
  simp only [inTimedHold, Bool.or_eq_false_iff] at hhold
  obtain ⟨hdelay, hlock⟩ := hhold
  cases m with
  | core =>
    obtain ⟨st, n, -, hsp, -⟩ := hinv.transfer_step hx
    cases (coreStep_of_transfer hsp hx).symm.trans h
    exact .inl rfl
  | transport a => exact .inr ⟨a, (transportAnswer_of_pending a hx).symm.trans h⟩
  | timer => simp only [move, timerAnswer, hdelay] at h; cases h; exact .inl rfl
  | grant => simp only [move, grantLock, hlock] at h; cases h; exact .inl rfl
  | rest | lateAnswer => cases h; exact .inl rfl
  | blockReset => exact absurd rfl hm

end

/-- Settles O52: the HOST's step reaches its port only, and the one move that goes on is the answer's, which ends the
request. -/
theorem transferBufferStableDuringTransfer : Obligations.TransferBufferStableDuringTransfer := by
  intro s t hinv hstep hx hreset
  obtain ⟨u, m, hm, hmove, rest, hu⟩ := step_parts hstep hreset
  have hturn : Inv { s with turns := rest } := { hinv with }
  have hinvu : Inv u := by
    rcases hu with rfl | ⟨a, ha⟩
    · exact hturn
    · exact hturn.hostStep ha
  have hb : s.busy = true := by
    obtain ⟨st, n, -, hsp, -⟩ := hinv.transfer_step hx
    rw [hinv.busy, hsp]
    rfl
  have hport : PortChange { s with turns := rest } u := (turn_of_busy hb hu).resolve_right fun ⟨hhold, _⟩ => by
    cases (hinv.noTimedHold_of_transfer hx).symm.trans hhold
  have hxu : u.xfer.pending = true := by rw [hport]; exact hx
  rcases hinvu.move_of_transfer hxu hm hmove with rfl | ⟨a, hanswer⟩
  · rw [hport]
    exact ⟨rfl, rfl, rfl, fun _ => ⟨rfl, rfl, rfl, rfl⟩⟩
  · have hview : bufferView t = bufferView (recordAnswer a u) :=
      proceed_answered (hinvu.transfer hxu).1 (by simp) hanswer
    have hdraw : t.draw = (recordAnswer a u).draw := congrArg CommandFrame.draw (proceed_keepsFrame hanswer)
    simp only [bufferView, Prod.mk.injEq] at hview
    obtain ⟨htb, hxfer, hdc⟩ := hview
    rw [htb, hdc, hdraw, hxfer, hport]
    exact ⟨rfl, rfl, rfl, nofun⟩

/-! ## An executing FLUSH -/

section
variable {s t : State} {rest : List Word}

/-- A FLUSH that goes on or is abandoned writes no pixel (R279, R303). -/
theorem proceed_flush_keeps_pb (hdec : decode (asmWords s) = .ok (.flush, rest)) (h : proceed s = .next t) :
    t.pb = s.pb := by
  rcases proceed_eq_next h with ⟨-, -, rfl⟩ | ⟨-, h⟩
  · rfl
  rcases runCommand_eq_next h with ⟨i, rest', hdec', hexec⟩ | ⟨e, -, -, hdec', -⟩
  · cases hdec.symm.trans hdec'
    rcases execFlush_reach hexec with hreach | ⟨-, rfl⟩
    · exact congrArg (fun p => p.2.2.2.2.2) hreach.fixed
    · rfl
  · cases hdec.symm.trans hdec'

/-- With a FLUSH's words in ASM no move writes a pixel: the core goes on with it, or takes the header of the next command
(R126, R279). -/
theorem move_flush_keeps_pb {m : Move} (hdec : decode (asmWords s) = .ok (.flush, rest)) (hphase : s.asm.phase = .none)
    (hm : m ≠ .blockReset) (h : move m s = .next t) : t.pb = s.pb := by
  cases m with
  | rest | lateAnswer => cases h; rfl
  | blockReset => exact absurd rfl hm
  | core =>
    rcases coreStep_eq_next h with rfl | ⟨w, -, -, -, h⟩ | ⟨op, st, n, -, -, -, h⟩
    · rfl
    · simp only [accept, hphase] at h
      cases h
      unfold acceptHeader
      dsimp only
      split <;> rfl
    · exact proceed_flush_keeps_pb hdec h
  | transport a =>
    simp only [move, transportAnswer] at h
    split_ifs at h
    · exact proceed_flush_keeps_pb (s := recordAnswer a s) hdec h
    · cases h; rfl
  | timer =>
    simp only [move, timerAnswer] at h
    split_ifs at h
    · exact proceed_flush_keeps_pb (s := { s with delay := none, reply := some .ok }) hdec h
    · cases h; rfl
  | grant =>
    simp only [move, grantLock] at h
    split_ifs at h
    · exact proceed_flush_keeps_pb (s := { s with reply := some .ok }) hdec h
    · cases h; rfl

end

/-- Settles O53: the HOST's step leaves PB and the command's words in ASM alone, and no move of a FLUSH writes a pixel. -/
theorem pixelsStableDuringFlush : Obligations.PixelsStableDuringFlush := by
  intro s t rest hinv hstep hb hdec hreset
  obtain ⟨u, m, hm, hmove, turns, hu⟩ := step_parts hstep hreset
  have hkept : u.pb = s.pb ∧ u.asm = s.asm := by
    rcases turn_of_busy hb hu with hport | ⟨-, d, rfl⟩
    · rw [hport]
      exact ⟨rfl, rfl⟩
    · exact ⟨rfl, rfl⟩
  obtain ⟨hpb, hasm⟩ := hkept
  have hphase : u.asm.phase = .none := by rw [hasm]; exact hinv.notBoth hb
  have hdecu : decode (asmWords u) = .ok (.flush, rest) := by rwa [asmWords, hasm]
  exact (move_flush_keeps_pb hdecu hphase hm hmove).trans hpb

end Sys2Proof.Machine
